-- ==== Sys2Proof/Word.lean ====
section
/-!
DEFINITION. The words of the ECFT block: 16-bit registers (`CTR_WIDTH`), 8-bit transmit bytes, 10-bit ADC results
(`ADC_BITS`). Every quantity of the block is unsigned (00_scope.md R10).
-/

namespace Sys2Proof

/-- A register of `CTR_WIDTH` = 16 bits, and the 16-bit operation word (00_scope.md R8, 30_encoding.md R74). -/
abbrev Word := BitVec 16

/-- A byte of a frame and of the transmit holding buffer (10_state.md R32). -/
abbrev Byte := BitVec 8

/-- A result of the analog-to-digital converter, `ADC_BITS` = 10 bits (00_scope.md R8). -/
abbrev AdcResult := BitVec 10

end Sys2Proof
end

