-- ==== Sys2Proof/Config.lean ====
section
/-!
DEFINITION. Implementation parameters (00_scope.md R8) and the choices the spec leaves to the environment.

The parameters a rule's outcome depends on form one record, `Params`, with the source's values as defaults; the
operations are written over a `Params`, and the machine runs them at `Config.params`. What the spec leaves free is an
opaque constant read at a counter of the state, so that nothing can be proved about its value.
-/

namespace Sys2Proof

/-- The named parameters of 00_scope.md R8, with their defaults. `CTR_WIDTH`, `ADC_BITS` and `CHAR_FORMAT` are the
widths of `Word`, `AdcResult` and of a character. -/
structure Params where
  /-- `LOW_WRAP`: the LowCount value at which the carry into HighCount happens. -/
  lowWrap : Nat := 250
  /-- `WINDOW_TICKS`: the WindowTick value that ends a window. -/
  windowTicks : Nat := 25
  /-- `TICK_PERIOD`: timer clock cycles per window-tick. -/
  tickPeriod : Nat := 10000
  /-- `ADC_THRESHOLD`: the smallest ADC result that counts as signal present. -/
  adcThreshold : Nat := 203
  deriving DecidableEq, Repr

namespace Config

/-- The parameters the machine runs with: the source's values (00_scope.md R8). -/
def params : Params := {}

/-- `SETTLE_CYCLES`, used in timing notes only (42_host_protocol.md R174). -/
def settleCycles : Nat := 10

/-- `BAUD_RATE` in bit/s, used in timing notes only (70_reset_and_hazards.md R260). -/
def baudRate : Nat := 9600

/-- `FRAME_BYTES`: bytes per frame (30_encoding.md R70). -/
def frameBytes : Nat := 2

/-- Window-ticks per second: a tick is 1/100 s (00_scope.md R9). -/
def ticksPerSecond : Nat := 100

/-- `CLK_HZ`, derived: 10000 × 100 (00_scope.md R9). No rule of the model depends on it. -/
def clkHz : Nat := params.tickPeriod * ticksPerSecond

/-- `BAUD_CLKS`, OPEN: timer clock cycles per UART bit time (00_scope.md R8). The nominal value, about 104.17, is not a
whole number (70_reset_and_hazards.md R261). DESIGN CHOICE: one rational number for the whole run, whole or not
(log 14). No rule reads it. -/
opaque baudClks : Rat

/-- `REG_MAP`, OPEN: the address of the n-th register in a host address space (20_memory.md R51). DESIGN CHOICE: a
natural number per register (log 14). No rule reads it. -/
opaque regMap : Nat → Nat

/-- Free: which of the enabled agents steps at the n-th free choice (42_host_protocol.md R185 f, log 2). -/
opaque freePick : Nat → Nat

/-- Free: what the ADC oracle offers at the n-th free choice, a result or none (42_host_protocol.md R171, R172, log 2). -/
opaque freeOffer : Nat → Option AdcResult

/-- Free: the draw `kt` of a DISARM at the n-th free choice (42_host_protocol.md R177, log 2). -/
opaque freeKeepTick : Nat → Bool

/-- Free: the draw `ke` of a DISARM at the n-th free choice (42_host_protocol.md R177, log 2). -/
opaque freeKeepEdge : Nat → Bool

end Config

end Sys2Proof
end

