-- ==== Sys2Proof/Syntax.lean ====
section
/-!
DEFINITION. The operations of the block's interface: one constructor per row of spec/opcode_table.json
(30_encoding.md R75), with the operand forms of 30_encoding.md R79.
-/

namespace Sys2Proof

/-- An operation: one step of one agent (00_scope.md R7, 30_encoding.md R74, R75). -/
inductive Instr where
  /-- RESET, power-on reset, by ENV (70_reset_and_hazards.md R230). -/
  | reset
  /-- CLK, one cycle of the timer clock, by ENV (40_counter_timer.md R100). -/
  | clk
  /-- EDGE, a falling edge at the capture input, by ENV (40_counter_timer.md R101). -/
  | edge
  /-- BTN, a button press, by ENV (42_host_protocol.md R181). -/
  | btn
  /-- BAUD, one UART bit time begins, by ENV (41_frame_transmitter.md R142). -/
  | baud
  /-- TICK_SVC, service of the window-tick interrupt, by SVC (40_counter_timer.md R103). -/
  | tickSvc
  /-- EDGE_SVC, service of the capture interrupt, by SVC (40_counter_timer.md R104). -/
  | edgeSvc
  /-- ARM, start both timers, by a host context (40_counter_timer.md R105). -/
  | arm
  /-- DISARM kt, ke, stop both timers, by a host context; the draws are the environment's
  (40_counter_timer.md R106). -/
  | disarm (kt ke : Bool)
  /-- CLEAR, zero the counters and time bases, by a host context (40_counter_timer.md R107). -/
  | clear
  /-- RD_WT, read WindowTick, by a host context (40_counter_timer.md R108). -/
  | rdWt
  /-- RD_LOW, read LowCount, by a host context (40_counter_timer.md R109). -/
  | rdLow
  /-- RD_HIGH, read HighCount, by a host context (40_counter_timer.md R110). -/
  | rdHigh
  /-- RD_TXRDY, read the transmit-ready status, by a host context (41_frame_transmitter.md R140). -/
  | rdTxrdy
  /-- TX_WR b, write one byte to the holding buffer, by a host context (41_frame_transmitter.md R141). -/
  | txWr (b : Byte)
  /-- LED_ON, by a host context (41_frame_transmitter.md R143). -/
  | ledOn
  /-- LED_OFF, by a host context (41_frame_transmitter.md R144). -/
  | ledOff
  deriving DecidableEq, Repr

end Sys2Proof
end

