-- ==== Sys2Proof/WellFormed.lean ====
section
/-!
DEFINITION. What makes an issued operation well-formed: its issuer (30_encoding.md R75, R78); what makes a parameter
record legal (10_state.md R27). The operands need no check of their own: a byte is 8 bits and a draw one bit by type
(30_encoding.md R79).
-/

namespace Sys2Proof

/-- The four agents (00_scope.md R7). -/
inductive Agent where
  /-- ENV, the environment. -/
  | env
  /-- SVC, the interrupt-service agent. -/
  | svc
  /-- MAIN, the AnalogGate main context of the host. -/
  | main
  /-- BCTX, the button interrupt context of the host. -/
  | bctx
  deriving DecidableEq, Repr

/-- The agents that may issue an operation: the column "issuer" of 30_encoding.md R75, where "host" means MAIN or
BCTX. -/
def Instr.issuers : Instr → List Agent
  | .reset | .clk | .edge | .btn | .baud => [.env]
  | .tickSvc | .edgeSvc => [.svc]
  | .arm | .disarm _ _ | .clear | .rdWt | .rdLow | .rdHigh | .rdTxrdy | .txWr _ | .ledOn | .ledOff => [.main, .bctx]

/-- Operation `i` issued by agent `a` is well-formed; issued by any other agent it is ill-formed
(30_encoding.md R78). -/
def wellIssued (a : Agent) (i : Instr) : Bool := i.issuers.contains a

/-- A legal parameter record: 1 ≤ `TICK_PERIOD` ≤ 65536 (10_state.md R27). -/
def Params.wf (p : Params) : Bool := decide (1 ≤ p.tickPeriod) && decide (p.tickPeriod ≤ 65536)

end Sys2Proof
end

