-- ==== Sys2Proof/Decode.lean ====
section
/-!
DEFINITION. The operation word (30_encoding.md R74 to R77): the decoder, total on any 16-bit word and rejecting the
reserved words by name, then the encoder, the operation map as a table of masks and patterns (R75), and the assembly
form of an operation (R90).
-/

namespace Sys2Proof

/-- Why a word is reserved: the three classes of 30_encoding.md R77. -/
inductive Reserved where
  /-- (a): op = 0x00. -/
  | opZero
  /-- (b): op = 0x12..0x1F. -/
  | opUnassigned
  /-- (c): a bit outside the format's fields is set. -/
  | strayBits
  deriving DecidableEq, Repr

/-- Field `op = w[15:11]` (30_encoding.md R74). -/
def opField (w : Word) : BitVec 5 := w.extractLsb' 11 5

/-- Format Z: w[10:0] must be zero (30_encoding.md R74, R77 c). -/
def decodeZ (i : Instr) (w : Word) : Except Reserved Instr :=
  if w.extractLsb' 0 11 = 0#11 then .ok i else .error .strayBits

/-- Format D: w[10:2] must be zero, `kt = w[1]`, `ke = w[0]` (30_encoding.md R74, R77 c). -/
def decodeD (w : Word) : Except Reserved Instr :=
  if w.extractLsb' 2 9 = 0#9 then .ok (.disarm (w.getLsbD 1) (w.getLsbD 0)) else .error .strayBits

/-- Format B: w[10:8] must be zero, `b = w[7:0]` (30_encoding.md R74, R77 c). -/
def decodeB (w : Word) : Except Reserved Instr :=
  if w.extractLsb' 8 3 = 0#3 then .ok (.txWr (w.extractLsb' 0 8)) else .error .strayBits

/-- Decoding, total on any 16-bit word (30_encoding.md R75, R76). -/
def decode (w : Word) : Except Reserved Instr :=
  match (opField w).toNat with
  | 0x00 => .error .opZero
  | 0x01 => decodeZ .reset w
  | 0x02 => decodeZ .clk w
  | 0x03 => decodeZ .edge w
  | 0x04 => decodeZ .btn w
  | 0x05 => decodeZ .baud w
  | 0x06 => decodeZ .tickSvc w
  | 0x07 => decodeZ .edgeSvc w
  | 0x08 => decodeZ .arm w
  | 0x09 => decodeD w
  | 0x0A => decodeZ .clear w
  | 0x0B => decodeZ .rdWt w
  | 0x0C => decodeZ .rdLow w
  | 0x0D => decodeZ .rdHigh w
  | 0x0E => decodeZ .rdTxrdy w
  | 0x0F => decodeB w
  | 0x10 => decodeZ .ledOn w
  | 0x11 => decodeZ .ledOff w
  | _ => .error .opUnassigned

/-- The operation read from the low `nbits` bits of `w`. A word of the block is a single 16-bit number with bit 0 the
least significant (30_encoding.md R74); it lies in no memory, so there is no byte order to undo. -/
def decodeTableWord (nbits w : Nat) : Option Instr :=
  match decode (BitVec.ofNat 16 (w % 2 ^ nbits)) with
  | .ok i => some i
  | .error _ => none

/-- The op column of 30_encoding.md R75. -/
def Instr.op : Instr → BitVec 5
  | .reset => 0x01
  | .clk => 0x02
  | .edge => 0x03
  | .btn => 0x04
  | .baud => 0x05
  | .tickSvc => 0x06
  | .edgeSvc => 0x07
  | .arm => 0x08
  | .disarm _ _ => 0x09
  | .clear => 0x0A
  | .rdWt => 0x0B
  | .rdLow => 0x0C
  | .rdHigh => 0x0D
  | .rdTxrdy => 0x0E
  | .txWr _ => 0x0F
  | .ledOn => 0x10
  | .ledOff => 0x11

/-- The low 11 bits of an operation's word, by its format (30_encoding.md R74). -/
def Instr.lowBits : Instr → BitVec 11
  | .disarm kt ke => 0#9 ++ BitVec.ofBool kt ++ BitVec.ofBool ke
  | .txWr b => 0#3 ++ b
  | .reset | .clk | .edge | .btn | .baud | .tickSvc | .edgeSvc | .arm | .clear | .rdWt | .rdLow | .rdHigh
  | .rdTxrdy | .ledOn | .ledOff => 0#11

/-- The word of an operation (30_encoding.md R74, R75). -/
def encode (i : Instr) : Word := i.op ++ i.lowBits

/-- The mnemonics of 30_encoding.md R75. -/
def Instr.mnemonic : Instr → String
  | .reset => "RESET"
  | .clk => "CLK"
  | .edge => "EDGE"
  | .btn => "BTN"
  | .baud => "BAUD"
  | .tickSvc => "TICK_SVC"
  | .edgeSvc => "EDGE_SVC"
  | .arm => "ARM"
  | .disarm _ _ => "DISARM"
  | .clear => "CLEAR"
  | .rdWt => "RD_WT"
  | .rdLow => "RD_LOW"
  | .rdHigh => "RD_HIGH"
  | .rdTxrdy => "RD_TXRDY"
  | .txWr _ => "TX_WR"
  | .ledOn => "LED_ON"
  | .ledOff => "LED_OFF"

/-- A row of the operation map: a word selects the operation when `w AND mask = pattern` (30_encoding.md R75). -/
structure OpcodeRow where
  mnemonic : String
  pattern : Word
  mask : Word
  issuers : List Agent
  deriving DecidableEq, Repr

/-- The test of 30_encoding.md R75. -/
def OpcodeRow.selects (r : OpcodeRow) (w : Word) : Bool := decide (w &&& r.mask = r.pattern)

/-- The operation map of 30_encoding.md R75, row by row. -/
def opcodeMap : List OpcodeRow :=
  [⟨"RESET", 0x0800, 0xFFFF, [.env]⟩,
   ⟨"CLK", 0x1000, 0xFFFF, [.env]⟩,
   ⟨"EDGE", 0x1800, 0xFFFF, [.env]⟩,
   ⟨"BTN", 0x2000, 0xFFFF, [.env]⟩,
   ⟨"BAUD", 0x2800, 0xFFFF, [.env]⟩,
   ⟨"TICK_SVC", 0x3000, 0xFFFF, [.svc]⟩,
   ⟨"EDGE_SVC", 0x3800, 0xFFFF, [.svc]⟩,
   ⟨"ARM", 0x4000, 0xFFFF, [.main, .bctx]⟩,
   ⟨"DISARM", 0x4800, 0xFFFC, [.main, .bctx]⟩,
   ⟨"CLEAR", 0x5000, 0xFFFF, [.main, .bctx]⟩,
   ⟨"RD_WT", 0x5800, 0xFFFF, [.main, .bctx]⟩,
   ⟨"RD_LOW", 0x6000, 0xFFFF, [.main, .bctx]⟩,
   ⟨"RD_HIGH", 0x6800, 0xFFFF, [.main, .bctx]⟩,
   ⟨"RD_TXRDY", 0x7000, 0xFFFF, [.main, .bctx]⟩,
   ⟨"TX_WR", 0x7800, 0xFF00, [.main, .bctx]⟩,
   ⟨"LED_ON", 0x8000, 0xFFFF, [.main, .bctx]⟩,
   ⟨"LED_OFF", 0x8800, 0xFFFF, [.main, .bctx]⟩]

/-- The operand list of an operation's assembly line (30_encoding.md R90). -/
def Instr.asmOperands : Instr → List Nat
  | .disarm kt ke => [kt.toNat, ke.toNat]
  | .txWr b => [b.toNat]
  | .reset | .clk | .edge | .btn | .baud | .tickSvc | .edgeSvc | .arm | .clear | .rdWt | .rdLow | .rdHigh
  | .rdTxrdy | .ledOn | .ledOff => []

/-- One assembly line, already cut into its mnemonic and its operands, read as an operation: TX_WR takes a number
0..255, DISARM two numbers 0 or 1 in the order kt, ke, every other mnemonic none; anything else is no operation
(30_encoding.md R90). -/
def assemble (mnemonic : String) (operands : List Nat) : Option Instr :=
  match operands with
  | [] =>
    [Instr.reset, .clk, .edge, .btn, .baud, .tickSvc, .edgeSvc, .arm, .clear, .rdWt, .rdLow, .rdHigh, .rdTxrdy,
      .ledOn, .ledOff].find? (fun i => decide (i.mnemonic = mnemonic))
  | [b] => if mnemonic = "TX_WR" ∧ b < 256 then some (.txWr (BitVec.ofNat 8 b)) else none
  | [kt, ke] =>
    if mnemonic = "DISARM" ∧ kt < 2 ∧ ke < 2 then some (.disarm (decide (kt = 1)) (decide (ke = 1))) else none
  | _ => none

end Sys2Proof
end

