-- ==== Sys2Proof/Machine/State.lean ====
section
/-!
DEFINITION. The state of the ECFT block and of its host contexts (10_state.md R22 to R39), the observation trace
(00_scope.md R13), the reasons a step can stop, and the state after reset. The block has no memory (20_memory.md R50),
so the state holds none.
-/

namespace Sys2Proof.Machine

/-- The names FAULTS can hold: `TxOverrun` is the block's only fault (60_exceptions.md R201). It is recorded in the
state by TX_WR and the run goes on; it is not a stop of the step function (log 4). -/
inductive FaultName where
  | txOverrun
  deriving DecidableEq, Repr

/-- What a read operation returns: the register read and its whole value (20_memory.md R52, 30_encoding.md R79). -/
inductive ReadValue where
  | wt (v : Word)
  | low (v : Word)
  | high (v : Word)
  | txrdy (r : Bool)
  deriving DecidableEq, Repr

/-- The events of the observation trace (00_scope.md R13). -/
inductive Event where
  /-- LINE(b): the serial line held level b for one bit time. -/
  | line (level : Bool)
  /-- LED(v): the indicator took level v. -/
  | led (level : Bool)
  /-- READ(reg, v): a read returned v. -/
  | read (v : ReadValue)
  /-- LOST_EDGE: a falling edge arrived while EDGEPEND was set. -/
  | lostEdge
  /-- LOST_TICK: a window-tick arrived while TICKPEND was set. -/
  | lostTick
  /-- LOST_BTN: a button press arrived while BTNPEND was set. -/
  | lostBtn
  /-- FAULT(f): fault f was raised. -/
  | fault (f : FaultName)
  deriving DecidableEq, Repr

/-- The steps of SEND_FRAME a, b with its two WAIT_TXRDY loops expanded (30_encoding.md R92,
41_frame_transmitter.md R145, R146). -/
inductive SendPc where
  /-- LED_ON. -/
  | ledOn
  /-- First WAIT_TXRDY: `r := RD_TXRDY`. -/
  | poll1
  /-- First WAIT_TXRDY: `if r = 0 goto Lw`. -/
  | test1
  /-- TX_WR trunc_8(a). -/
  | write1
  /-- Second WAIT_TXRDY: `r := RD_TXRDY`. -/
  | poll2
  /-- Second WAIT_TXRDY: `if r = 0 goto Lw`. -/
  | test2
  /-- TX_WR trunc_8(b). -/
  | write2
  /-- LED_OFF. -/
  | ledOff
  deriving DecidableEq, Repr

/-- The control states of MAIN: one per step of the program of 42_host_protocol.md R170. -/
inductive MainPc where
  /-- G_SAMPLE: ADC_SAMPLE v. -/
  | gSample
  /-- The `if v < ADC_THRESHOLD goto G_SAMPLE` after it. -/
  | gGate
  /-- G_SETTLE: settle. -/
  | gSettle
  /-- G_ARM: ARM. -/
  | gArm
  /-- G_WAIT: `t := RD_WT`. -/
  | gWait
  /-- The `if t != WINDOW_TICKS goto G_WAIT` after it. -/
  | gWaitTest
  /-- G_DISARM: DISARM kt, ke. -/
  | gDisarm
  /-- G_READ: `l := RD_LOW`. -/
  | gReadLow
  /-- G_READ: `h := RD_HIGH`. -/
  | gReadHigh
  /-- G_TEST: `if l = 0 and h = 0 goto G_CLEAR`. -/
  | gTest
  /-- G_SEND: SEND_FRAME l, h, at one of its steps. -/
  | gSend (k : SendPc)
  /-- G_CLEAR: CLEAR. -/
  | gClear
  /-- The `goto G_SAMPLE` after it. -/
  | gLoop
  deriving DecidableEq, Repr

/-- The control states of BCTX (42_host_protocol.md R183). -/
inductive BctxPc where
  /-- B_SEND: SEND_REST, at one of its steps. -/
  | bSend (k : SendPc)
  /-- B_RET: return from interrupt. -/
  | bRet
  deriving DecidableEq, Repr

/-- The state of MAIN (10_state.md R38). A local is `none` while it is unwritten, a value the spec itself gives it
(70_reset_and_hazards.md R230); `r` is the local of WAIT_TXRDY (30_encoding.md R92, log 7). -/
structure MainCtx where
  pc : MainPc
  v : Option AdcResult
  l : Option Word
  h : Option Word
  t : Option Word
  r : Option Bool
  deriving DecidableEq, Repr

/-- The state of BCTX (10_state.md R38); `r` is the local of WAIT_TXRDY (30_encoding.md R92, log 7). -/
structure BctxCtx where
  active : Bool
  pc : BctxPc
  r : Option Bool
  deriving DecidableEq, Repr

/-- One turn of the schedule: which agent steps next, and how (20_memory.md R55, 42_host_protocol.md R185, log 1). -/
inductive Turn where
  /-- Agent `a` issues the operation word `w` (30_encoding.md R74). -/
  | issue (a : Agent) (w : Word)
  /-- MAIN takes the next step of its control program; `offer` is what the ADC oracle offers, `kt` and `ke` the
  environment's draws if the step is DISARM (42_host_protocol.md R171, R177). -/
  | main (offer : Option AdcResult) (kt ke : Bool)
  /-- BCTX takes its next step: its entry while inactive, its control program while active
  (42_host_protocol.md R182, R183). -/
  | bctx
  deriving DecidableEq, Repr

/-- Everything the spec gives the machine (10_state.md R39, R38, 00_scope.md R13), and four fields of the model's own:
`trace`'s carrier `returned` for "return v" (log 9), the placed `schedule` (log 1) and the counter `draws` of free
choices (log 2). -/
structure State where
  /-- WT, WindowTick (10_state.md R22). -/
  wt : Word
  /-- LOW, LowCount (10_state.md R23). -/
  low : Word
  /-- HIGH, HighCount (10_state.md R24). -/
  high : Word
  /-- ARMED: both timers run (10_state.md R26). -/
  armed : Bool
  /-- WINBASE, the window-tick time base (10_state.md R27). -/
  winBase : Word
  /-- CAPBASE, the capture time base (10_state.md R28). -/
  capBase : Word
  /-- TICKPEND (10_state.md R29). -/
  tickPend : Bool
  /-- EDGEPEND (10_state.md R30). -/
  edgePend : Bool
  /-- BTNPEND (10_state.md R31). -/
  btnPend : Bool
  /-- TXBUF, the transmit holding buffer (10_state.md R32). -/
  txBuf : Byte
  /-- TXFULL; TXRDY is its negation (10_state.md R33). -/
  txFull : Bool
  /-- TXBUSY (10_state.md R34). -/
  txBusy : Bool
  /-- TXSHIFT, the character being sent in wire order (10_state.md R34). -/
  txShift : BitVec 10
  /-- TXIDX, the index of the bit now on the line (10_state.md R34). -/
  txIdx : BitVec 4
  /-- TXD, the serial output line (10_state.md R35). -/
  txd : Bool
  /-- LED, the indicator output (10_state.md R36). -/
  led : Bool
  /-- FAULTS, the sticky fault names, without repeats (10_state.md R37). -/
  faults : List FaultName
  /-- REFUSED, the sticky mark (10_state.md R37). -/
  refused : Bool
  /-- MAIN's control state and locals (10_state.md R38). -/
  main : MainCtx
  /-- BCTX's activity, control state and local (10_state.md R38). -/
  bctx : BctxCtx
  /-- The observation trace, oldest event first (00_scope.md R13). -/
  trace : List Event
  /-- The value the last read operation handed back to its issuer (00_scope.md R11, log 9). -/
  returned : Option ReadValue
  /-- The turns placed ahead, next one first (log 1). -/
  schedule : List Turn
  /-- How many free choices have been made (log 2). -/
  draws : Nat
  deriving DecidableEq, Repr

/-- The host locals (10_state.md R38, 30_encoding.md R92). -/
inductive HostLocal where
  | mainV
  | mainL
  | mainH
  | mainT
  | mainR
  | bctxR
  deriving DecidableEq, Repr

/-- The faults that stop the step function. -/
inductive Fault where
  /-- Raised by a control step of MAIN or BCTX that reads a host local nothing has written: "A read of an unwritten
  local faults in the model" (10_state.md R38, 93_implementation_defined.md I13). No run of the control programs does
  it. Safe: the machine stops. -/
  | unwrittenLocal (x : HostLocal)
  deriving DecidableEq, Repr

/-- The refusals of the step function. -/
inductive Refusal where
  /-- Raised by an arm of `exec` whose operation has no meaning yet (none is left). Safe: the machine stops. -/
  | notModelled (mnemonic : String)
  /-- Raised when a turn asks agent `a` for a step whose enabling condition is false: the agent "cannot take it in that
  state" (40_counter_timer.md, header; 42_host_protocol.md R171, R182, R185). By TICK_SVC and EDGE_SVC without their
  pending flag, by MAIN while BCTX is active, by MAIN at G_SAMPLE without an ADC offer, by BCTX while it is inactive and
  no button is pending. Safe: the machine stops (log 5). -/
  | notEnabled (a : Agent)
  deriving DecidableEq, Repr

/-- The initial state of a run: what RESET leaves, with no fault and no refusal recorded (70_reset_and_hazards.md R230,
R232, 10_state.md R39). The locals `r`, BCTX.pc, the trace, the returned value, the schedule and the draw counter are
the model's choices (log 7, 8, 9, 1, 2). -/
def State.reset : State where
  wt := 0
  low := 0
  high := 0
  armed := false
  winBase := 0
  capBase := 0
  tickPend := false
  edgePend := false
  btnPend := false
  txBuf := 0x00
  txFull := false
  txBusy := false
  txShift := 0x3FF
  txIdx := 0
  txd := true
  led := false
  faults := []
  refused := false
  main := { pc := .gSample, v := none, l := none, h := none, t := none, r := none }
  bctx := { active := false, pc := .bSend .ledOn, r := none }
  trace := []
  returned := none
  schedule := []
  draws := 0

end Sys2Proof.Machine
end

