-- ==== Sys2Proof/Machine/Ops.lean ====
section
/-!
DEFINITION. The named operations every meaning is built from: recording an event, handing a read value back, raising a
fault, marking a refusal, latching an interrupt event in its pending flag, taking the button interrupt and returning
from it, and chaining a step with what follows it.
-/

namespace Sys2Proof.Machine

/-- The outcome of a step of this machine, over any result type. -/
abbrev Result (α : Type) := Host.Outcome α Fault Refusal

/-- `record E`: append event E to the observation trace (00_scope.md R11, R13). -/
def State.record (s : State) (e : Event) : State := { s with trace := s.trace ++ [e] }

/-- A read operation: record READ(reg, v) and return v to the issuer (00_scope.md R11, 20_memory.md R53). -/
def State.answerRead (s : State) (v : ReadValue) : State :=
  { s with trace := s.trace ++ [.read v], returned := some v }

/-- `record FAULT(f)`, `raise Fault(f)`: add the sticky name f to FAULTS (60_exceptions.md R200, R201). -/
def State.raiseFault (s : State) (f : FaultName) : State :=
  { s with trace := s.trace ++ [.fault f], faults := if s.faults.contains f then s.faults else s.faults ++ [f] }

/-- Set REFUSED and change nothing else (60_exceptions.md R202). -/
def State.markRefused (s : State) : State := { s with refused := true }

/-- An interrupt event meets its pending flag: already set, the event is lost and only recorded; else the flag is set
by `set` (60_exceptions.md R203, R207). -/
def State.latch (s : State) (pending : Bool) (lost : Event) (set : State → State) : State :=
  if pending then s.record lost else set s

/-- Taking the button interrupt: BTNPEND and BCTX are written, MAIN's control state and locals stay in place
(42_host_protocol.md R182, 60_exceptions.md R210). -/
def State.enterButton (s : State) : State :=
  { s with btnPend := false, bctx := { s.bctx with active := true, pc := .bSend .ledOn } }

/-- Return from the button interrupt, B_RET: MAIN resumes at its kept control state (42_host_protocol.md R183,
60_exceptions.md R211). -/
def State.returnFromButton (s : State) : State := { s with bctx := { s.bctx with active := false } }

/-- Move MAIN to control state `pc`: a `goto` changes only MAIN.pc (42_host_protocol.md R170). -/
def State.mainGoto (s : State) (pc : MainPc) : State := { s with main := { s.main with pc := pc } }

/-- Move BCTX to control state `pc`. -/
def State.bctxGoto (s : State) (pc : BctxPc) : State := { s with bctx := { s.bctx with pc := pc } }

/-- Run `o`, then `f` on its result; a fault or a refusal ends the step. -/
def andThen {α β : Type} (o : Result α) (f : α → Result β) : Result β :=
  match o with
  | .next a => f a
  | .fault r => .fault r
  | .refused r => .refused r

/-- Read a host local: an unwritten one faults (10_state.md R38). -/
def withLocal {α β : Type} (x : HostLocal) (v : Option α) (f : α → Result β) : Result β :=
  match v with
  | some a => f a
  | none => .fault (.unwrittenLocal x)

end Sys2Proof.Machine
end

