-- ==== Sys2Proof/Machine/Operands.lean ====
section
/-!
DEFINITION. The operand forms (30_encoding.md R79): the value a read returns, the narrowing of a host value to a byte,
the character a byte becomes on the line. Fields of the operation word are read in Sys2Proof/Decode.lean.
-/

namespace Sys2Proof.Machine

/-- The returned value as a 16-bit host local; the 1-bit status is extended with zeros (30_encoding.md R79). -/
def ReadValue.word : ReadValue → Word
  | .wt v => v
  | .low v => v
  | .high v => v
  | .txrdy r => (BitVec.ofBool r).setWidth 16

/-- The returned value as a 1-bit host local (30_encoding.md R79). -/
def ReadValue.bit : ReadValue → Bool
  | .wt v => v.getLsbD 0
  | .low v => v.getLsbD 0
  | .high v => v.getLsbD 0
  | .txrdy r => r

/-- `trunc_8(v) = v mod 256`, the only narrowing (00_scope.md R10, 20_memory.md R60, 41_frame_transmitter.md R146). -/
def trunc8 (v : Word) : Byte := v.setWidth 8

/-- The shift register's image of a byte, `{1, d[7:0], 0}`: bit 0 the start bit, bits 8:1 the data, bit 9 the stop bit
(30_encoding.md R71). -/
def charOf (d : Byte) : BitVec 10 := 1#1 ++ d ++ 0#1

end Sys2Proof.Machine
end

