-- ==== Sys2Proof/Machine/Flags.lean ====
section
/-!
DEFINITION. The conditions and status bits the operations compute: the wrap of the window time base, the carry of the
accumulator, transmit-ready, what DISARM's draws keep, the level of the serial line.
-/

namespace Sys2Proof.Machine

/-- The window time base is at its last value, so the next armed CLK wraps it (40_counter_timer.md R100). -/
def winBaseAtEnd (p : Params) (s : State) : Bool := decide (s.winBase.toNat = p.tickPeriod - 1)

/-- The transient value `n = LOW + 1` equals `LOW_WRAP`: increment first, then compare (40_counter_timer.md R104,
90_conflicts.md C1). -/
def lowRollsOver (p : Params) (s : State) : Bool := decide ((s.low + 1).toNat = p.lowWrap)

/-- `TXRDY = NOT TXFULL` (10_state.md R33). -/
def txReady (s : State) : Bool := !s.txFull

/-- A pending flag after DISARM: kept if the draw is 1, cleared if it is 0 (40_counter_timer.md R106). -/
def keptPending (pending draw : Bool) : Bool := if draw then pending else false

/-- The level of the serial line: the bit at TXIDX while a character is sent, 1 while idle (10_state.md R35). -/
def lineLevel (s : State) : Bool := if s.txBusy then s.txShift.getLsbD s.txIdx.toNat else true

end Sys2Proof.Machine
end

