-- ==== Sys2Proof/Machine/Counter.lean ====
section
/-!
DEFINITION. The counter unit: CLK, EDGE, TICK_SVC, EDGE_SVC, ARM, DISARM, CLEAR, RD_WT, RD_LOW, RD_HIGH
(40_counter_timer.md R100 to R110).
-/

namespace Sys2Proof.Machine

/-- The tick event of an armed CLK that wraps the time base: TICKPEND is set, or the tick is lost
(40_counter_timer.md R100). -/
def latchTick (s : State) : State := s.latch s.tickPend .lostTick (fun s => { s with tickPend := true })

/-- One cycle of the timer clock with parameters `p` (40_counter_timer.md R100). -/
def clkOp (p : Params) (s : State) : State :=
  if s.armed then
    let s1 := { s with capBase := s.capBase + 1 }
    if winBaseAtEnd p s then latchTick { s1 with winBase := 0 } else { s1 with winBase := s.winBase + 1 }
  else s

/-- CLK (40_counter_timer.md R100). -/
def execClk (s : State) : Result State := .next (clkOp Config.params s)

/-- EDGE (40_counter_timer.md R101). -/
def execEdge (s : State) : Result State :=
  .next (if s.armed then s.latch s.edgePend .lostEdge (fun s => { s with edgePend := true }) else s)

/-- TICK_SVC, enabled only when TICKPEND = 1 (40_counter_timer.md R103). -/
def execTickSvc (s : State) : Result State :=
  if s.tickPend then .next { s with tickPend := false, wt := s.wt + 1 } else .refused (.notEnabled .svc)

/-- The accumulator update with parameters `p` (40_counter_timer.md R104). -/
def edgeSvcOp (p : Params) (s : State) : State :=
  if lowRollsOver p s then { s with edgePend := false, low := 0, high := s.high + 1 }
  else { s with edgePend := false, low := s.low + 1 }

/-- EDGE_SVC, enabled only when EDGEPEND = 1 (40_counter_timer.md R104). -/
def execEdgeSvc (s : State) : Result State :=
  if s.edgePend then .next (edgeSvcOp Config.params s) else .refused (.notEnabled .svc)

/-- ARM (40_counter_timer.md R105). -/
def execArm (s : State) : Result State := .next { s with armed := true }

/-- DISARM kt, ke (40_counter_timer.md R106). -/
def execDisarm (kt ke : Bool) (s : State) : Result State :=
  .next { s with armed := false, tickPend := keptPending s.tickPend kt, edgePend := keptPending s.edgePend ke }

/-- CLEAR, one atomic step over five registers (40_counter_timer.md R107). -/
def execClear (s : State) : Result State :=
  .next { s with wt := 0, low := 0, high := 0, winBase := 0, capBase := 0 }

/-- RD_WT (40_counter_timer.md R108). -/
def execRdWt (s : State) : Result State := .next (s.answerRead (.wt s.wt))

/-- RD_LOW (40_counter_timer.md R109). -/
def execRdLow (s : State) : Result State := .next (s.answerRead (.low s.low))

/-- RD_HIGH (40_counter_timer.md R110). -/
def execRdHigh (s : State) : Result State := .next (s.answerRead (.high s.high))

end Sys2Proof.Machine
end

