-- ==== Sys2Proof/Machine/Platform.lean ====
section
/-!
DEFINITION. The platform's operations: the button press BTN (42_host_protocol.md R181) and RESET
(70_reset_and_hazards.md R230).
-/

namespace Sys2Proof.Machine

/-- BTN (42_host_protocol.md R181). -/
def execBtn (s : State) : Result State :=
  .next (s.latch s.btnPend .lostBtn (fun s => { s with btnPend := true }))

/-- RESET writes what 70_reset_and_hazards.md R230 lists, and nothing else: FAULTS, REFUSED and the trace stay
(10_state.md R37). -/
def execReset (s : State) : Result State :=
  .next { s with
    wt := 0
    low := 0
    high := 0
    armed := false
    winBase := 0
    capBase := 0
    tickPend := false
    edgePend := false
    btnPend := false
    txBuf := 0x00
    txFull := false
    txBusy := false
    txShift := 0x3FF
    txIdx := 0
    txd := true
    led := false
    main := { s.main with pc := .gSample, v := none, l := none, h := none, t := none }
    bctx := { s.bctx with active := false } }

end Sys2Proof.Machine
end

