-- ==== Sys2Proof/Machine/Transmitter.lean ====
section
/-!
DEFINITION. The transmitter unit: RD_TXRDY, TX_WR, BAUD, LED_ON, LED_OFF (41_frame_transmitter.md R140 to R144).
-/

namespace Sys2Proof.Machine

/-- RD_TXRDY (41_frame_transmitter.md R140). -/
def execRdTxrdy (s : State) : Result State := .next (s.answerRead (.txrdy (txReady s)))

/-- TX_WR b: into the holding buffer, or TxOverrun when the buffer is full (41_frame_transmitter.md R141,
60_exceptions.md R201). -/
def execTxWr (b : Byte) (s : State) : Result State :=
  .next (if s.txFull then s.raiseFault .txOverrun else { s with txBuf := b, txFull := true })

/-- BAUD, first part: the previous bit time ends (41_frame_transmitter.md R142). -/
def endBit (s : State) : State :=
  if s.txBusy then
    if s.txIdx = 9 then { s with txBusy := false, txIdx := 0 } else { s with txIdx := s.txIdx + 1 }
  else s

/-- BAUD, second part: an idle shifter takes the waiting byte (41_frame_transmitter.md R142). -/
def startChar (s : State) : State :=
  if !s.txBusy && s.txFull then
    { s with txShift := charOf s.txBuf, txFull := false, txBusy := true, txIdx := 0 }
  else s

/-- BAUD, third part: the line takes its level, which is recorded (41_frame_transmitter.md R142). -/
def driveLine (s : State) : State := { s with txd := lineLevel s }.record (.line (lineLevel s))

/-- BAUD (41_frame_transmitter.md R142). -/
def execBaud (s : State) : Result State := .next (driveLine (startChar (endBit s)))

/-- The indicator takes a level, which is recorded (41_frame_transmitter.md R143, R144). -/
def setLed (level : Bool) (s : State) : State := { s with led := level }.record (.led level)

/-- LED_ON (41_frame_transmitter.md R143). -/
def execLedOn (s : State) : Result State := .next (setLed true s)

/-- LED_OFF (41_frame_transmitter.md R144). -/
def execLedOff (s : State) : Result State := .next (setLed false s)

end Sys2Proof.Machine
end

