-- ==== Sys2Proof/Machine/Dispatch.lean ====
section
/-!
DEFINITION. One arm per operation of 30_encoding.md R75.
-/

namespace Sys2Proof.Machine

def exec (i : Instr) (s : State) : Host.Outcome State Fault Refusal :=
  match i with
  | .reset => Sys2Proof.Machine.execReset s
  | .clk => Sys2Proof.Machine.execClk s
  | .edge => Sys2Proof.Machine.execEdge s
  | .btn => Sys2Proof.Machine.execBtn s
  | .baud => Sys2Proof.Machine.execBaud s
  | .tickSvc => Sys2Proof.Machine.execTickSvc s
  | .edgeSvc => Sys2Proof.Machine.execEdgeSvc s
  | .arm => Sys2Proof.Machine.execArm s
  | .disarm kt ke => Sys2Proof.Machine.execDisarm kt ke s
  | .clear => Sys2Proof.Machine.execClear s
  | .rdWt => Sys2Proof.Machine.execRdWt s
  | .rdLow => Sys2Proof.Machine.execRdLow s
  | .rdHigh => Sys2Proof.Machine.execRdHigh s
  | .rdTxrdy => Sys2Proof.Machine.execRdTxrdy s
  | .txWr b => Sys2Proof.Machine.execTxWr b s
  | .ledOn => Sys2Proof.Machine.execLedOn s
  | .ledOff => Sys2Proof.Machine.execLedOff s

end Sys2Proof.Machine
end

