-- ==== Sys2Proof/Machine/HostProgram.lean ====
section
/-!
DEFINITION. The control programs of the host contexts: SEND_FRAME (41_frame_transmitter.md R145, R146), which both
contexts run, MAIN (42_host_protocol.md R170 to R180) and BCTX (42_host_protocol.md R182, R183). Each step either
issues one block operation, through `exec`, or is a host-side control form without a word (30_encoding.md R91).
-/

namespace Sys2Proof.Machine

/-- What a step of SEND_FRAME leaves: the machine's state, the context's local `r` and the next step; `none` after the
last one. -/
structure SendResult where
  state : State
  r : Option Bool
  next : Option SendPc
  deriving DecidableEq, Repr

/-- Issue operation `i` as the step of SEND_FRAME, keep `r`, go on to `k`. -/
def sendIssue (i : Instr) (r : Option Bool) (k : Option SendPc) (s : State) : Result SendResult :=
  andThen (exec i s) fun s' => .next ⟨s', r, k⟩

/-- `r := RD_TXRDY` (30_encoding.md R92). -/
def sendPoll (k : SendPc) (s : State) : Result SendResult :=
  andThen (exec .rdTxrdy s) fun s' => .next ⟨s', s'.returned.map ReadValue.bit, some k⟩

/-- `if r = 0 goto Lw` (30_encoding.md R92): back to the poll, or on to `k`. -/
def sendTest (name : HostLocal) (poll k : SendPc) (r : Option Bool) (s : State) : Result SendResult :=
  withLocal name r fun ready => .next ⟨s, r, some (if ready then k else poll)⟩

/-- TX_WR trunc_8(v), `v` a host value that must be written (41_frame_transmitter.md R146). -/
def sendWrite (name : HostLocal) (v : Option Word) (r : Option Bool) (k : SendPc) (s : State) : Result SendResult :=
  withLocal name v fun v => sendIssue (.txWr (trunc8 v)) r (some k) s

/-- One step of SEND_FRAME a, b at control state `k` (41_frame_transmitter.md R146). The names are those of the locals
that hold a, b and r. -/
def sendStep (nameA nameB nameR : HostLocal) (a b : Option Word) (k : SendPc) (r : Option Bool) (s : State) :
    Result SendResult :=
  match k with
  | .ledOn => sendIssue .ledOn r (some .poll1) s
  | .poll1 => sendPoll .test1 s
  | .test1 => sendTest nameR .poll1 .write1 r s
  | .write1 => sendWrite nameA a r .poll2 s
  | .poll2 => sendPoll .test2 s
  | .test2 => sendTest nameR .poll2 .write2 r s
  | .write2 => sendWrite nameB b r .ledOff s
  | .ledOff => sendIssue .ledOff r none s

/-- Issue operation `i` as MAIN's step, then move MAIN to `pc`. -/
def mainIssue (i : Instr) (pc : MainPc) (s : State) : Result State :=
  andThen (exec i s) fun s' => .next (s'.mainGoto pc)

/-- ADC_SAMPLE v: enabled only when the oracle offers a result, which MAIN.v takes (42_host_protocol.md R171, R172). -/
def mainSample (offer : Option AdcResult) (s : State) : Result State :=
  match offer with
  | some v => .next { s with main := { s.main with v := some v, pc := .gGate } }
  | none => .refused (.notEnabled .main)

/-- `if v < ADC_THRESHOLD goto G_SAMPLE`, unsigned (42_host_protocol.md R173). -/
def mainGate (p : Params) (s : State) : Result State :=
  withLocal .mainV s.main.v fun v => .next (s.mainGoto (if v.toNat < p.adcThreshold then .gSample else .gSettle))

/-- `t := RD_WT` (42_host_protocol.md R176). -/
def mainReadWt (s : State) : Result State :=
  andThen (exec .rdWt s) fun s' =>
    .next { s' with main := { s'.main with t := s'.returned.map ReadValue.word, pc := .gWaitTest } }

/-- `if t != WINDOW_TICKS goto G_WAIT`: the test is equality (42_host_protocol.md R176). -/
def mainWaitTest (p : Params) (s : State) : Result State :=
  withLocal .mainT s.main.t fun t => .next (s.mainGoto (if t.toNat = p.windowTicks then .gDisarm else .gWait))

/-- `l := RD_LOW` (42_host_protocol.md R178). -/
def mainReadLow (s : State) : Result State :=
  andThen (exec .rdLow s) fun s' =>
    .next { s' with main := { s'.main with l := s'.returned.map ReadValue.word, pc := .gReadHigh } }

/-- `h := RD_HIGH` (42_host_protocol.md R178). -/
def mainReadHigh (s : State) : Result State :=
  andThen (exec .rdHigh s) fun s' =>
    .next { s' with main := { s'.main with h := s'.returned.map ReadValue.word, pc := .gTest } }

/-- `if l = 0 and h = 0 goto G_CLEAR`, on the full 16-bit copies (42_host_protocol.md R179). -/
def mainTest (s : State) : Result State :=
  withLocal .mainL s.main.l fun l => withLocal .mainH s.main.h fun h =>
    .next (s.mainGoto (if l = 0 ∧ h = 0 then .gClear else .gSend .ledOn))

/-- G_SEND: a step of SEND_FRAME MAIN.l, MAIN.h, then G_CLEAR (42_host_protocol.md R170, R179). -/
def mainSend (k : SendPc) (s : State) : Result State :=
  andThen (sendStep .mainL .mainH .mainR s.main.l s.main.h k s.main.r s) fun x =>
    .next { x.state with main := { x.state.main with
      r := x.r
      pc := match x.next with
        | some k' => .gSend k'
        | none => .gClear } }

/-- One step of MAIN's control program (42_host_protocol.md R170). The settle step has no effect on the block
(R174); `kt` and `ke` are the environment's draws for DISARM (R177). -/
def mainStep (p : Params) (offer : Option AdcResult) (kt ke : Bool) (s : State) : Result State :=
  match s.main.pc with
  | .gSample => mainSample offer s
  | .gGate => mainGate p s
  | .gSettle => .next (s.mainGoto .gArm)
  | .gArm => mainIssue .arm .gWait s
  | .gWait => mainReadWt s
  | .gWaitTest => mainWaitTest p s
  | .gDisarm => mainIssue (.disarm kt ke) .gReadLow s
  | .gReadLow => mainReadLow s
  | .gReadHigh => mainReadHigh s
  | .gTest => mainTest s
  | .gSend k => mainSend k s
  | .gClear => mainIssue .clear .gLoop s
  | .gLoop => .next (s.mainGoto .gSample)

/-- B_SEND: a step of SEND_REST = SEND_FRAME 0, 0, then B_RET (41_frame_transmitter.md R147, 42_host_protocol.md
R183). -/
def bctxSend (k : SendPc) (s : State) : Result State :=
  andThen (sendStep .bctxR .bctxR .bctxR (some 0) (some 0) k s.bctx.r s) fun x =>
    .next { x.state with bctx := { x.state.bctx with
      r := x.r
      pc := match x.next with
        | some k' => .bSend k'
        | none => .bRet } }

/-- One step of BCTX's control program (42_host_protocol.md R183). -/
def bctxProgram (s : State) : Result State :=
  match s.bctx.pc with
  | .bSend k => bctxSend k s
  | .bRet => .next s.returnFromButton

/-- One step of BCTX: its program while active, its entry while inactive and BTNPEND = 1 (42_host_protocol.md R182 to
R184). -/
def bctxStep (s : State) : Result State :=
  if s.bctx.active then bctxProgram s
  else if s.btnPend then .next s.enterButton
  else .refused (.notEnabled .bctx)

end Sys2Proof.Machine
end

