-- ==== Sys2Proof/Machine/Schedule.lean ====
section
/-!
DEFINITION. Scheduling (42_host_protocol.md R185): who may step, what a turn does, which turn comes next when none is
placed.
-/

namespace Sys2Proof.Machine

/-- The context is running, so that it may issue: ENV and SVC between any two steps, MAIN only while BCTX is inactive
(42_host_protocol.md R185 a, b, d), BCTX only while it is active (deduced from R182 and R183, log 5). -/
def agentRuns (a : Agent) (s : State) : Bool :=
  match a with
  | .env => true
  | .svc => true
  | .main => !s.bctx.active
  | .bctx => s.bctx.active

/-- Agent `a` issues the word `w`: a reserved word or a wrong issuer is refused in the block's own sense and sets
REFUSED only (60_exceptions.md R202, 30_encoding.md R77, R78); else the operation runs. -/
def issueWord (a : Agent) (w : Word) (s : State) : Result State :=
  match decode w with
  | .error _ => .next s.markRefused
  | .ok i =>
    if wellIssued a i then
      if agentRuns a s then exec i s else .refused (.notEnabled a)
    else .next s.markRefused

/-- What a turn does (42_host_protocol.md R185). -/
def runTurn (t : Turn) (s : State) : Result State :=
  match t with
  | .issue a w => issueWord a w s
  | .main offer kt ke => if agentRuns .main s then mainStep Config.params offer kt ke s else .refused (.notEnabled .main)
  | .bctx => bctxStep s

/-- MAIN waits at G_SAMPLE for the ADC oracle (42_host_protocol.md R171, R172). -/
def mainWaitsForAdc (offer : Option AdcResult) (s : State) : Bool := decide (s.main.pc = .gSample) && offer.isNone

/-- ENV's turns, always enabled (42_host_protocol.md R185 a). -/
def envTurns : List Turn :=
  [.issue .env (encode .reset), .issue .env (encode .clk), .issue .env (encode .edge), .issue .env (encode .btn),
    .issue .env (encode .baud)]

/-- SVC's enabled turns (42_host_protocol.md R185 b). -/
def svcTurns (s : State) : List Turn :=
  (if s.tickPend then [.issue .svc (encode .tickSvc)] else []) ++
    (if s.edgePend then [.issue .svc (encode .edgeSvc)] else [])

/-- BCTX's enabled turn: its program while active, its entry while a button is pending (42_host_protocol.md R182,
R185 c, d). -/
def bctxTurns (s : State) : List Turn := if s.bctx.active || s.btnPend then [.bctx] else []

/-- MAIN's enabled turn, given what the ADC offers and DISARM's draws (42_host_protocol.md R171, R185 d). -/
def mainTurns (offer : Option AdcResult) (kt ke : Bool) (s : State) : List Turn :=
  if s.bctx.active || mainWaitsForAdc offer s then [] else [.main offer kt ke]

/-- Every turn some agent may take in `s` (42_host_protocol.md R185). -/
def enabledTurns (offer : Option AdcResult) (kt ke : Bool) (s : State) : List Turn :=
  envTurns ++ svcTurns s ++ bctxTurns s ++ mainTurns offer kt ke s

/-- The turns enabled at the next free choice, with the free offer and draws. -/
def freeTurns (s : State) : List Turn :=
  enabledTurns (Config.freeOffer s.draws) (Config.freeKeepTick s.draws) (Config.freeKeepEdge s.draws) s

/-- The freely chosen turn: any of the enabled ones (42_host_protocol.md R185 f, log 2). -/
def chooseTurn (s : State) : Turn :=
  (freeTurns s).getD (Config.freePick s.draws % (freeTurns s).length) (.issue .env (encode .clk))

/-- The turn the machine takes next: the first placed one, or a free choice (log 1, 2). -/
def nextTurn (s : State) : Turn :=
  match s.schedule with
  | t :: _ => t
  | [] => chooseTurn s

/-- The state the turn runs in: the placed turn is taken off the schedule, or the free choice is counted. -/
def takeTurn (s : State) : State :=
  match s.schedule with
  | _ :: rest => { s with schedule := rest }
  | [] => { s with draws := s.draws + 1 }

/-- An agent that may issue operation `i` in state `s`: ENV, SVC, or the host context that runs
(30_encoding.md R75, 42_host_protocol.md R185). -/
def issuerOf (i : Instr) (s : State) : Agent :=
  match i with
  | .reset | .clk | .edge | .btn | .baud => .env
  | .tickSvc | .edgeSvc => .svc
  | .arm | .disarm _ _ | .clear | .rdWt | .rdLow | .rdHigh | .rdTxrdy | .txWr _ | .ledOn | .ledOff =>
    if s.bctx.active then .bctx else .main

/-- Set the pending flag that the service operation `i` needs for its step to exist (40_counter_timer.md R103, R104);
no other operation needs one. -/
def withEnabling (i : Instr) (s : State) : State :=
  match i with
  | .tickSvc => { s with tickPend := true }
  | .edgeSvc => { s with edgePend := true }
  | .reset | .clk | .edge | .btn | .baud | .arm | .disarm _ _ | .clear | .rdWt | .rdLow | .rdHigh | .rdTxrdy | .txWr _
  | .ledOn | .ledOff => s

/-- Place the word `w` as the next turn, issued by an agent that may issue it; a reserved word is placed as ENV's. -/
def placeWord (w : Word) (s : State) : State :=
  match decode w with
  | .ok i => { withEnabling i s with schedule := .issue (issuerOf i s) w :: s.schedule }
  | .error _ => { s with schedule := .issue .env w :: s.schedule }

end Sys2Proof.Machine
end

