-- ==== Sys2Proof/Machine/Step.lean ====
section
/-!
DEFINITION. One step of the machine: the next turn of the total order of 20_memory.md R55.
-/

namespace Sys2Proof.Machine

/-- One step: take the next turn and run it (20_memory.md R55, 42_host_protocol.md R185). -/
def step (s : State) : Host.Outcome State Fault Refusal := runTurn (nextTurn s) (takeTurn s)

/-- `s` with the word `w` placed as the turn the next step takes (log 3). -/
def State.withFetchWord (s : State) (nbits w : Nat) : State := placeWord (BitVec.ofNat 16 (w % 2 ^ nbits)) s

end Sys2Proof.Machine
end

