-- ==== Sys2Proof/Machine/Receiver.lean ====
section
/-!
DEFINITION. The wire: the levels of a character (30_encoding.md R71), the bytes of a frame (20_memory.md R58,
30_encoding.md R70), and the receiver's decoding contract (30_encoding.md R73, 42_host_protocol.md R190), which is
outside the block.
-/

namespace Sys2Proof.Machine

/-- The ten levels of a character, in the order of the bit times (30_encoding.md R71). -/
def charLevels (d : Byte) : List Bool :=
  [false, d.getLsbD 0, d.getLsbD 1, d.getLsbD 2, d.getLsbD 3, d.getLsbD 4, d.getLsbD 5, d.getLsbD 6, d.getLsbD 7, true]

/-- The bytes of SEND_FRAME a, b: low value first, each cut to 8 bits (20_memory.md R58, 41_frame_transmitter.md
R146). -/
def frameBytes (a b : Word) : List Byte := [trunc8 a, trunc8 b]

/-- The levels the serial line held, one per bit time, as the trace records them (00_scope.md R13). -/
def lineLevels : List Event → List Bool
  | [] => []
  | .line b :: es => b :: lineLevels es
  | .led _ :: es => lineLevels es
  | .read _ :: es => lineLevels es
  | .lostEdge :: es => lineLevels es
  | .lostTick :: es => lineLevels es
  | .lostBtn :: es => lineLevels es
  | .fault _ :: es => lineLevels es

/-- The receiver takes bytes 2k and 2k+1 as frame k; an odd last byte waits (30_encoding.md R73). -/
def receivedFrames : List Byte → List (Byte × Byte)
  | b0 :: b1 :: bs => (b0, b1) :: receivedFrames bs
  | [_] => []
  | [] => []

/-- `TotalEdges = byte1*250 + byte0` (42_host_protocol.md R190). -/
def receivedEdges (frame : Byte × Byte) : Nat := frame.2.toNat * 250 + frame.1.toNat

/-- `Frequency = TotalEdges * 4` Hz (42_host_protocol.md R190). -/
def receivedHz (frame : Byte × Byte) : Nat := receivedEdges frame * 4

/-- The pair (0, 0) means silence (42_host_protocol.md R190). -/
def isRest (frame : Byte × Byte) : Bool := decide (frame.1 = 0) && decide (frame.2 = 0)

end Sys2Proof.Machine
end

