-- ==== Sys2Proof/Safety.lean ====
section
/-!
DEFINITION. What claims about the block are stated in: the states that count, the ranges of the registers, the host
locals a control state needs, the condition that keeps TX_WR from overrunning, sequences of operations, and admissible
runs with their fairness and premises.
-/

namespace Sys2Proof.Machine

/-- A state a claim may speak about: nothing after a fault and nothing of a refused run counts (60_exceptions.md R200,
R202). -/
def State.Counts (s : State) : Prop := s.faults = [] ∧ s.refused = false

/-- TotalEdges, the accumulator's value (10_state.md R25). -/
def State.totalEdges (s : State) : Nat := s.high.toNat * 250 + s.low.toNat

/-- The registers are in their legal ranges and the line shows what the shift register says (10_state.md R23, R27, R34,
R35, R37, R39; 30_encoding.md R71 for the start and stop bits). -/
structure State.Legal (s : State) : Prop where
  low : s.low.toNat < 250
  winBase : s.winBase.toNat < 10000
  txIdx : s.txIdx.toNat ≤ 9
  txIdxIdle : s.txBusy = false → s.txIdx = 0
  txd : s.txd = if s.txBusy then s.txShift.getLsbD s.txIdx.toNat else true
  startBit : s.txBusy = true → s.txShift.getLsbD 0 = false
  stopBit : s.txBusy = true → s.txShift.getLsbD 9 = true
  faults : s.faults.Nodup

/-- The step of SEND_FRAME at `k` finds the local `r` it reads (30_encoding.md R92). -/
def SendPc.rWritten (k : SendPc) (r : Option Bool) : Bool :=
  match k with
  | .test1 | .test2 => r.isSome
  | .ledOn | .poll1 | .write1 | .poll2 | .write2 | .ledOff => true

/-- The host locals MAIN's control state needs are written (10_state.md R38). -/
def MainCtx.ready (m : MainCtx) : Bool :=
  match m.pc with
  | .gGate => m.v.isSome
  | .gWaitTest => m.t.isSome
  | .gReadHigh => m.l.isSome
  | .gTest => m.l.isSome && m.h.isSome
  | .gSend k => m.l.isSome && m.h.isSome && k.rWritten m.r
  | .gSample | .gSettle | .gArm | .gWait | .gDisarm | .gReadLow | .gClear | .gLoop => true

/-- The same for an active BCTX. -/
def BctxCtx.ready (b : BctxCtx) : Bool :=
  match b.pc with
  | .bSend k => !b.active || k.rWritten b.r
  | .bRet => true

/-- Every local the next control step of either context reads is written (10_state.md R38). -/
def State.LocalsReady (s : State) : Prop := s.main.ready = true ∧ s.bctx.ready = true

/-- A context at step `k` of SEND_FRAME that has seen TXRDY = 1, or is at its TX_WR, faces an empty holding buffer. -/
def SendPc.bufferFree (k : SendPc) (r : Option Bool) (s : State) : Bool :=
  match k with
  | .test1 | .test2 => decide (r = some true → s.txFull = false)
  | .write1 | .write2 => !s.txFull
  | .ledOn | .poll1 | .poll2 | .ledOff => true

/-- MAIN will not overrun the transmit buffer if nobody else writes it (41_frame_transmitter.md R141). -/
def State.MainBufferFree (s : State) : Prop :=
  match s.main.pc with
  | .gSend k => k.bufferFree s.main.r s = true
  | .gSample | .gGate | .gSettle | .gArm | .gWait | .gWaitTest | .gDisarm | .gReadLow | .gReadHigh | .gTest | .gClear
  | .gLoop => True

/-- An active BCTX will not overrun the transmit buffer (41_frame_transmitter.md R141). -/
def State.BctxBufferFree (s : State) : Prop :=
  match s.bctx.pc with
  | .bSend k => s.bctx.active = true → k.bufferFree s.bctx.r s = true
  | .bRet => True

/-- The turn is one of the control programs' own or of ENV or SVC: no host context issues a word outside its control
program (42_host_protocol.md R170, R183). -/
def Turn.followsPrograms : Turn → Bool
  | .issue .env _ => true
  | .issue .svc _ => true
  | .issue .main _ => false
  | .issue .bctx _ => false
  | .main _ _ _ => true
  | .bctx => true

/-- The turn is taken by ENV, SVC or MAIN's control program, not by the button context. -/
def Turn.notButton : Turn → Bool
  | .issue .env _ => true
  | .issue .svc _ => true
  | .issue .main _ => false
  | .issue .bctx _ => false
  | .main _ _ _ => true
  | .bctx => false

/-- The turn brings no signal and no button press: the ADC offers nothing at or above the threshold, ENV issues no BTN,
and no host context issues a word outside its control program (42_host_protocol.md R192). -/
def Turn.bringsNoSignal : Turn → Bool
  | .issue .env w => !decide (w = encode .btn)
  | .issue .svc _ => true
  | .issue .main _ => false
  | .issue .bctx _ => false
  | .main offer _ _ => offer.all (fun v => decide (v.toNat < 203))
  | .bctx => true

/-- The block while no signal is present (42_host_protocol.md R192): MAIN samples, or has sampled a value below the
threshold; nothing is armed, pending, counted or being sent. -/
structure State.Silent (s : State) : Prop where
  gate : s.main.pc = .gSample ∨ (s.main.pc = .gGate ∧ ∃ v, s.main.v = some v ∧ v.toNat < 203)
  armed : s.armed = false
  pending : s.tickPend = false ∧ s.edgePend = false ∧ s.btnPend = false
  counters : s.wt = 0 ∧ s.low = 0 ∧ s.high = 0
  idle : s.txFull = false ∧ s.txBusy = false
  led : s.led = false
  button : s.bctx.active = false

/-- The steps SEND_FRAME can move to from `k`; none after the last one (41_frame_transmitter.md R145, R146). A test of
WAIT_TXRDY is a step of its own (log 6), and a TX_WR moves on even after TxOverrun (log 17). -/
def SendPc.successors : SendPc → List SendPc
  | .ledOn => [.poll1]
  | .poll1 => [.test1]
  | .test1 => [.poll1, .write1]
  | .write1 => [.poll2]
  | .poll2 => [.test2]
  | .test2 => [.poll2, .write2]
  | .write2 => [.ledOff]
  | .ledOff => []

/-- The control states MAIN can move to from `pc` (42_host_protocol.md R170). -/
def MainPc.successors : MainPc → List MainPc
  | .gSample => [.gGate]
  | .gGate => [.gSample, .gSettle]
  | .gSettle => [.gArm]
  | .gArm => [.gWait]
  | .gWait => [.gWaitTest]
  | .gWaitTest => [.gWait, .gDisarm]
  | .gDisarm => [.gReadLow]
  | .gReadLow => [.gReadHigh]
  | .gReadHigh => [.gTest]
  | .gTest => [.gClear, .gSend .ledOn]
  | .gSend .ledOff => [.gClear]
  | .gSend k => k.successors.map .gSend
  | .gClear => [.gLoop]
  | .gLoop => [.gSample]

/-- The control states an active BCTX can move to from `pc`; B_RET ends its program (42_host_protocol.md R183). -/
def BctxPc.successors : BctxPc → List BctxPc
  | .bSend .ledOff => [.bRet]
  | .bSend k => k.successors.map .bSend
  | .bRet => []

/-- A sequence of operations, one step each, stopping at the first that does not answer a next state. -/
def execAll : List Instr → State → Host.Outcome State Fault Refusal
  | [], s => .next s
  | i :: is, s => andThen (exec i s) (execAll is)

end Sys2Proof.Machine

namespace Sys2Proof

/-- The operation zeroes or restarts nothing the count of window-ticks depends on: it is not RESET, CLEAR, ARM or
DISARM. -/
def Instr.keepsWindow : Instr → Bool
  | .reset | .clear | .arm | .disarm _ _ => false
  | .clk | .edge | .btn | .baud | .tickSvc | .edgeSvc | .rdWt | .rdLow | .rdHigh | .rdTxrdy | .txWr _ | .ledOn
  | .ledOff => true

/-- The operation does not zero the accumulator: it is not RESET or CLEAR (10_state.md R25). -/
def Instr.keepsCounts : Instr → Bool
  | .reset | .clear => false
  | .clk | .edge | .btn | .baud | .tickSvc | .edgeSvc | .arm | .disarm _ _ | .rdWt | .rdLow | .rdHigh | .rdTxrdy
  | .txWr _ | .ledOn | .ledOff => true

end Sys2Proof

namespace Sys2Proof.Machine

/-- A run: an infinite sequence of steps (20_memory.md R55). -/
def IsRun (r : Nat → State) : Prop := ∀ n, step (r n) = .next (r (n + 1))

/-- The turn is one of MAIN's control program. -/
def Turn.isMain : Turn → Bool
  | .main _ _ _ => true
  | .issue _ _ => false
  | .bctx => false

/-- MAIN is enabled: one of its turns is among those a free choice draws from, so BCTX is inactive and, at G_SAMPLE, the
oracle offers a result (42_host_protocol.md R171, R185 d). A schedule is finite and no step places a turn, so an infinite
run comes to free choices only, where these are the enabled turns (log 1, 2). -/
def State.mainEnabled (s : State) : Prop := ∃ t ∈ freeTurns s, t.isMain = true

/-- An admissible run is weakly fair: CLK and BAUD recur; a pending capture, tick or button event is eventually taken
or dropped; MAIN, while enabled, eventually steps. EDGE, BTN and the ADC carry no fairness (42_host_protocol.md
R186). -/
structure Admissible (r : Nat → State) : Prop where
  run : IsRun r
  clk : ∀ n, ∃ m, n ≤ m ∧ nextTurn (r m) = .issue .env (encode .clk)
  baud : ∀ n, ∃ m, n ≤ m ∧ nextTurn (r m) = .issue .env (encode .baud)
  tick : ∀ n, ∃ m, n ≤ m ∧ ((r m).tickPend = false ∨ nextTurn (r m) = .issue .svc (encode .tickSvc))
  edge : ∀ n, ∃ m, n ≤ m ∧ ((r m).edgePend = false ∨ nextTurn (r m) = .issue .svc (encode .edgeSvc))
  button : ∀ n, ∃ m, n ≤ m ∧ ((r m).btnPend = false ∨ ((r m).bctx.active = false ∧ nextTurn (r m) = .bctx))
  main : ∀ n, ∃ m, n ≤ m ∧ (¬ (r m).mainEnabled ∨ (nextTurn (r m)).isMain = true)

/-- The premise `ADC_LIVE`: every conversion completes (42_host_protocol.md R172). -/
def AdcLive (r : Nat → State) : Prop :=
  ∀ n, (r n).main.pc = .gSample → ∃ m, n ≤ m ∧
    ((r m).main.pc ≠ .gSample ∨ ((r m).bctx.active = false ∧ ∃ v kt ke, nextTurn (r m) = .main (some v) kt ke))

/-- MAIN is in its window wait and has not yet read the value 25: at the read, or at the test of another value
(42_host_protocol.md R176). -/
def State.awaitsTick25 (s : State) : Prop :=
  s.main.pc = .gWait ∨ (s.main.pc = .gWaitTest ∧ s.main.t ≠ some 25)

/-- The premise `POLL_IN_TIME`: whenever MAIN awaits the value 25 and WT = 25, MAIN reads WT while it still is, before the
26th TICK_SVC (42_host_protocol.md R188). A RESET before the read abandons the window and asks for no read (log 25). -/
def PollInTime (r : Nat → State) : Prop :=
  ∀ n, (r n).wt = 25 → (r n).awaitsTick25 → ∃ m, n ≤ m ∧ (∀ k, n ≤ k → k ≤ m → (r k).wt = 25) ∧
    (((r m).main.pc = .gWait ∧ (r m).bctx.active = false ∧ (nextTurn (r m)).isMain = true) ∨
      nextTurn (r m) = .issue .env (encode .reset))

end Sys2Proof.Machine
end

