-- ==== Sys2Proof/Certificates/Slice0/Obligations.lean ====
section
/-!
DEFINITION. The statements about the model, for the provers. Each docstring names the rule of spec/ a statement
formalises. Numerals stand for the default parameters of 00_scope.md R8.
-/

open Sys2Proof Sys2Proof.Machine

/-! ### Encoding -/

/-- 30_encoding.md R93 (derived there from R74 and R75): worked words, one of every row, and reserved words. -/
def Obligations.WorkedWordsDecode : Prop :=
  decode 0x0800 = .ok .reset ∧ decode 0x1000 = .ok .clk ∧ decode 0x1800 = .ok .edge ∧ decode 0x2000 = .ok .btn ∧
  decode 0x2800 = .ok .baud ∧ decode 0x3000 = .ok .tickSvc ∧ decode 0x3800 = .ok .edgeSvc ∧ decode 0x4000 = .ok .arm ∧
  decode 0x4801 = .ok (.disarm false true) ∧ decode 0x4802 = .ok (.disarm true false) ∧ decode 0x5000 = .ok .clear ∧
  decode 0x5800 = .ok .rdWt ∧ decode 0x6000 = .ok .rdLow ∧ decode 0x6800 = .ok .rdHigh ∧ decode 0x7000 = .ok .rdTxrdy ∧
  decode 0x7804 = .ok (.txWr 0x04) ∧ decode 0x8000 = .ok .ledOn ∧ decode 0x8800 = .ok .ledOff ∧
  decode 0x0000 = .error .opZero ∧ decode 0x1001 = .error .strayBits ∧ decode 0x7900 = .error .strayBits ∧
  decode 0x4804 = .error .strayBits ∧ decode 0x9000 = .error .opUnassigned ∧ decode 0xFFFF = .error .opUnassigned

/-- 30_encoding.md R74, R79: no bit of an operand is lost; every operation, at every operand value. -/
def Obligations.DecodeEncodeRoundTrip : Prop := ∀ i : Instr, decode (encode i) = .ok i

/-- 30_encoding.md R76: a word has one meaning; a word that decodes is the word of what it decodes to. -/
def Obligations.EncodeDecodeRoundTrip : Prop := ∀ (w : Word) (i : Instr), decode w = .ok i → encode i = w

/-- 30_encoding.md R75: a word whose masked bits match a row of the operation map decodes to that row's operation, and
the row's issuers are the operation's. -/
def Obligations.OpcodeMapSelectsOperation : Prop :=
  ∀ (w : Word) (r : OpcodeRow), r ∈ opcodeMap → w &&& r.mask = r.pattern →
    ∃ i, decode w = .ok i ∧ i.mnemonic = r.mnemonic ∧ ∀ a, wellIssued a i = true ↔ a ∈ r.issuers

/-- 30_encoding.md R76 (derived there from R75): decoding is total; no two rows match the same word, and a word that no
row matches is reserved. -/
def Obligations.WordMatchesOneRowOrIsReserved : Prop :=
  ∀ w : Word,
    (∀ r r' : OpcodeRow, r ∈ opcodeMap → r' ∈ opcodeMap → w &&& r.mask = r.pattern → w &&& r'.mask = r'.pattern →
      r = r') ∧
    ((∀ r ∈ opcodeMap, w &&& r.mask ≠ r.pattern) → ∃ e, decode w = .error e)

/-- 30_encoding.md R77: the reserved words are refused: REFUSED is set and nothing else happens, whoever issues them. That
this holds also for a host context that does not run is the model's reading (log 16). -/
def Obligations.ReservedWordsAreRefused : Prop :=
  ∀ (a : Agent) (w : Word) (s : State),
    (w.extractLsb' 11 5 = 0 ∨ 0x12 ≤ (w.extractLsb' 11 5).toNat ∨
      (w.extractLsb' 11 5 ≠ 0x09 ∧ w.extractLsb' 11 5 ≠ 0x0F ∧ w.extractLsb' 0 11 ≠ 0) ∨
      (w.extractLsb' 11 5 = 0x09 ∧ w.extractLsb' 2 9 ≠ 0) ∨ (w.extractLsb' 11 5 = 0x0F ∧ w.extractLsb' 8 3 ≠ 0)) →
    runTurn (.issue a w) s = .next { s with refused := true }

/-- 30_encoding.md R78: an operation issued by an agent other than its issuer is refused in the same way. That this holds
also for a host context that does not run is the model's reading (log 16). -/
def Obligations.WrongIssuerIsRefused : Prop :=
  ∀ (a : Agent) (i : Instr) (s : State),
    ((i.mnemonic ∈ ["RESET", "CLK", "EDGE", "BTN", "BAUD"] ∧ a ≠ .env) ∨
      (i.mnemonic ∈ ["TICK_SVC", "EDGE_SVC"] ∧ a ≠ .svc) ∨
      (i.mnemonic ∉ ["RESET", "CLK", "EDGE", "BTN", "BAUD", "TICK_SVC", "EDGE_SVC"] ∧ a ≠ .main ∧ a ≠ .bctx)) →
    runTurn (.issue a (encode i)) s = .next { s with refused := true }

/-! ### The step -/

/-- 20_memory.md R55: the next step is the next turn: the first placed one, which leaves the schedule, or the free
choice, which is counted. Schedule, free choice and counter are the model's (log 1 and 2). -/
def Obligations.StepRunsNextTurn : Prop :=
  (∀ (s : State) (t : Turn) (rest : List Turn), s.schedule = t :: rest → step s = runTurn t { s with schedule := rest }) ∧
  (∀ s : State, s.schedule = [] → step s = runTurn (chooseTurn s) { s with draws := s.draws + 1 })

/-- A step runs the decoded operation: a placed word that decodes, issued by an agent that may issue it and whose
context runs, is exactly that operation on the state without the turn (log 1). MAIN has no step while BCTX is active
(42_host_protocol.md R185 d). That an inactive BCTX, whose only step is its entry, has no step for a word either is the
model's deduction from 42_host_protocol.md R182, R183 (log 5). -/
def Obligations.StepRunsDecodedOperation : Prop :=
  ∀ (s : State) (a : Agent) (w : Word) (i : Instr) (rest : List Turn),
    s.schedule = .issue a w :: rest → decode w = .ok i → wellIssued a i = true →
    ((a = .main → s.bctx.active = false) → (a = .bctx → s.bctx.active = true) →
      step s = exec i { s with schedule := rest }) ∧
    ((a = .main ∧ s.bctx.active = true) ∨ (a = .bctx ∧ s.bctx.active = false) → ∀ t, step s ≠ .next t)

/-- The placed word of an operation is what the next step runs, from any state (log 3). -/
def Obligations.PlacedOperationRunsNext : Prop :=
  ∀ (s : State) (i : Instr),
    step (s.withFetchWord 16 (encode i).toNat) = exec i (withEnabling i s)

/-! ### The counter unit -/

/-- 40_counter_timer.md R100. -/
def Obligations.ClkAdvancesArmedTimers : Prop :=
  encode .clk = 0x1000 ∧ (∀ a, wellIssued a .clk = true ↔ a = .env) ∧
  (∀ s : State,
    (s.armed = false → exec .clk s = .next s) ∧
    (s.armed = true → s.winBase ≠ 9999 →
      exec .clk s = .next { s with capBase := s.capBase + 1, winBase := s.winBase + 1 }) ∧
    (s.armed = true → s.winBase = 9999 → s.tickPend = false →
      exec .clk s = .next { s with capBase := s.capBase + 1, winBase := 0, tickPend := true }) ∧
    (s.armed = true → s.winBase = 9999 → s.tickPend = true →
      exec .clk s = .next { s with capBase := s.capBase + 1, winBase := 0, trace := s.trace ++ [.lostTick] })) ∧
  (∀ (p : Params) (s : State), p.tickPeriod = 1 → s.armed = true → s.winBase = 0 →
    (clkOp p s).tickPend = true ∧ (s.tickPend = true → (clkOp p s).trace = s.trace ++ [.lostTick]))

/-- 40_counter_timer.md R101. -/
def Obligations.EdgeSetsPendingOrIsLost : Prop :=
  encode .edge = 0x1800 ∧ (∀ a, wellIssued a .edge = true ↔ a = .env) ∧
  ∀ s : State,
    (s.armed = false → exec .edge s = .next s) ∧
    (s.armed = true → s.edgePend = false → exec .edge s = .next { s with edgePend := true }) ∧
    (s.armed = true → s.edgePend = true → exec .edge s = .next { s with trace := s.trace ++ [.lostEdge] })

/-- 40_counter_timer.md R103. -/
def Obligations.TickSvcCountsWindowTick : Prop :=
  encode .tickSvc = 0x3000 ∧ (∀ a, wellIssued a .tickSvc = true ↔ a = .svc) ∧
  ∀ s : State,
    (s.tickPend = true → exec .tickSvc s = .next { s with tickPend := false, wt := s.wt + 1 }) ∧
    (s.tickPend = false → ∀ t, exec .tickSvc s ≠ .next t)

/-- 40_counter_timer.md R104, with 90_conflicts.md C1 and C2: increment, then compare with 250. The last clause is the
variant `LOW_WRAP` = 251 the rule names. -/
def Obligations.EdgeSvcCountsWithCarry : Prop :=
  encode .edgeSvc = 0x3800 ∧ (∀ a, wellIssued a .edgeSvc = true ↔ a = .svc) ∧
  (∀ s : State,
    (s.edgePend = true → s.low = 249 →
      exec .edgeSvc s = .next { s with edgePend := false, low := 0, high := s.high + 1 }) ∧
    (s.edgePend = true → s.low ≠ 249 → exec .edgeSvc s = .next { s with edgePend := false, low := s.low + 1 }) ∧
    (s.edgePend = false → ∀ t, exec .edgeSvc s ≠ .next t)) ∧
  (∀ s : State,
    (s.low = 249 → edgeSvcOp { lowWrap := 251 } s = { s with edgePend := false, low := 250 }) ∧
    (s.low = 250 → edgeSvcOp { lowWrap := 251 } s = { s with edgePend := false, low := 0, high := s.high + 1 }))

/-- 40_counter_timer.md R105. -/
def Obligations.ArmStartsBothTimers : Prop :=
  encode .arm = 0x4000 ∧ (∀ a, wellIssued a .arm = true ↔ a = .main ∨ a = .bctx) ∧
  ∀ s : State, exec .arm s = .next { s with armed := true } ∧ (s.armed = true → exec .arm s = .next s)

/-- 40_counter_timer.md R106: for all four draws. -/
def Obligations.DisarmStopsTimersAndDrawsFlags : Prop :=
  (∀ kt ke, encode (.disarm kt ke) = 0x4800 ||| (BitVec.ofBool kt).setWidth 16 <<< 1 ||| (BitVec.ofBool ke).setWidth 16) ∧
  (∀ a kt ke, wellIssued a (.disarm kt ke) = true ↔ a = .main ∨ a = .bctx) ∧
  ∀ (kt ke : Bool) (s : State),
    exec (.disarm kt ke) s = .next { s with
      armed := false
      tickPend := s.tickPend && kt
      edgePend := s.edgePend && ke }

/-- 40_counter_timer.md R107. -/
def Obligations.ClearZeroesCountersAndTimeBases : Prop :=
  encode .clear = 0x5000 ∧ (∀ a, wellIssued a .clear = true ↔ a = .main ∨ a = .bctx) ∧
  ∀ s : State, exec .clear s = .next { s with wt := 0, low := 0, high := 0, winBase := 0, capBase := 0 }

/-- 40_counter_timer.md R108, R109, R110, 20_memory.md R52, R53: a read records READ with the whole register and changes
nothing else. That the value handed back lies in the field `returned` is the model's choice (log 9). -/
def Obligations.CounterReadsReturnWholeRegister : Prop :=
  encode .rdWt = 0x5800 ∧ encode .rdLow = 0x6000 ∧ encode .rdHigh = 0x6800 ∧
  ∀ s : State,
    exec .rdWt s = .next { s with trace := s.trace ++ [.read (.wt s.wt)], returned := some (.wt s.wt) } ∧
    exec .rdLow s = .next { s with trace := s.trace ++ [.read (.low s.low)], returned := some (.low s.low) } ∧
    exec .rdHigh s = .next { s with trace := s.trace ++ [.read (.high s.high)], returned := some (.high s.high) }

/-! ### The transmitter unit -/

/-- 41_frame_transmitter.md R140: TXRDY = NOT TXFULL, whatever the shift register does. The field `returned` is the
model's choice (log 9). -/
def Obligations.RdTxrdyReportsEmptyBuffer : Prop :=
  encode .rdTxrdy = 0x7000 ∧
  ∀ s : State, exec .rdTxrdy s =
    .next { s with trace := s.trace ++ [.read (.txrdy (!s.txFull))], returned := some (.txrdy (!s.txFull)) }

/-- 41_frame_transmitter.md R141, 60_exceptions.md R201: into the empty buffer, or TxOverrun with TXBUF and TXFULL
unchanged. -/
def Obligations.TxWrFillsBufferOrOverruns : Prop :=
  (∀ b, encode (.txWr b) = 0x7800 ||| b.setWidth 16) ∧ (∀ a b, wellIssued a (.txWr b) = true ↔ a = .main ∨ a = .bctx) ∧
  ∀ (b : Byte) (s : State),
    (s.txFull = false → exec (.txWr b) s = .next { s with txBuf := b, txFull := true }) ∧
    (s.txFull = true → ∃ t, exec (.txWr b) s = .next t ∧ (∀ f, f ∈ t.faults ↔ f ∈ s.faults ∨ f = .txOverrun) ∧
      t = { s with trace := s.trace ++ [.fault .txOverrun], faults := t.faults })

/-- 41_frame_transmitter.md R142: the five cases of one UART bit time, with the character `[1, TXBUF, 0]` of
30_encoding.md R71 in the shift register, most significant part first. -/
def Obligations.BaudShiftsOneBit : Prop :=
  encode .baud = 0x2800 ∧ (∀ a, wellIssued a .baud = true ↔ a = .env) ∧
  ∀ s : State,
    (s.txBusy = false → s.txFull = false →
      exec .baud s = .next { s with txd := true, trace := s.trace ++ [.line true] }) ∧
    ((s.txBusy = false ∨ s.txIdx = 9) → s.txFull = true →
      exec .baud s = .next { s with
        txShift := 1#1 ++ s.txBuf ++ 0#1, txFull := false, txBusy := true, txIdx := 0, txd := false
        trace := s.trace ++ [.line false] }) ∧
    (s.txBusy = true → s.txIdx ≠ 9 →
      exec .baud s = .next { s with
        txIdx := s.txIdx + 1, txd := s.txShift.getLsbD (s.txIdx + 1).toNat
        trace := s.trace ++ [.line (s.txShift.getLsbD (s.txIdx + 1).toNat)] }) ∧
    (s.txBusy = true → s.txIdx = 9 → s.txFull = false →
      exec .baud s = .next { s with txBusy := false, txIdx := 0, txd := true, trace := s.trace ++ [.line true] })

/-- 41_frame_transmitter.md R143, R144: the level is written and recorded, also when it does not change. -/
def Obligations.LedOperationsSetAndRecord : Prop :=
  encode .ledOn = 0x8000 ∧ encode .ledOff = 0x8800 ∧
  (∀ a, wellIssued a .ledOn = true ↔ a = .main ∨ a = .bctx) ∧ (∀ a, wellIssued a .ledOff = true ↔ a = .main ∨ a = .bctx) ∧
  ∀ s : State,
    exec .ledOn s = .next { s with led := true, trace := s.trace ++ [.led true] } ∧
    exec .ledOff s = .next { s with led := false, trace := s.trace ++ [.led false] }

/-! ### Button and reset -/

/-- 42_host_protocol.md R181: whether or not BCTX is active. -/
def Obligations.BtnSetsPendingOrIsLost : Prop :=
  encode .btn = 0x2000 ∧ (∀ a, wellIssued a .btn = true ↔ a = .env) ∧
  ∀ s : State,
    (s.btnPend = false → exec .btn s = .next { s with btnPend := true }) ∧
    (s.btnPend = true → exec .btn s = .next { s with trace := s.trace ++ [.lostBtn] })

/-- 70_reset_and_hazards.md R230: every element the rule writes, in any state, and FAULTS, REFUSED and the recorded
events kept. -/
def Obligations.ResetWritesResetValues : Prop :=
  encode .reset = 0x0800 ∧ (∀ a, wellIssued a .reset = true ↔ a = .env) ∧
  ∀ s : State, ∃ t, exec .reset s = .next t ∧
    t.wt = 0 ∧ t.low = 0 ∧ t.high = 0 ∧ t.armed = false ∧ t.winBase = 0 ∧ t.capBase = 0 ∧
    t.tickPend = false ∧ t.edgePend = false ∧ t.btnPend = false ∧
    t.txBuf = 0x00 ∧ t.txFull = false ∧ t.txBusy = false ∧ t.txShift = 0x3FF ∧ t.txIdx = 0 ∧ t.txd = true ∧
    t.led = false ∧ t.main.pc = .gSample ∧ t.main.v = none ∧ t.main.l = none ∧ t.main.h = none ∧ t.main.t = none ∧
    t.bctx.active = false ∧ t.faults = s.faults ∧ t.refused = s.refused ∧ t.trace = s.trace

/-- RESET's frame: what 70_reset_and_hazards.md R230 does not list stays. That BCTX.pc, the locals r and the model's own
fields are among what stays is the model's reading (log 7). -/
def Obligations.ResetLeavesTheRest : Prop :=
  ∀ s : State, exec .reset s = .next { State.reset with
    faults := s.faults
    refused := s.refused
    main := { State.reset.main with r := s.main.r }
    bctx := { s.bctx with active := false }
    trace := s.trace
    returned := s.returned
    schedule := s.schedule
    draws := s.draws }

/-- 70_reset_and_hazards.md R232: the initial state is what RESET leaves, with no fault and no refusal; MAIN at
G_SAMPLE, timers disarmed, no flag pending, BCTX inactive and a button press taken at once. -/
def Obligations.InitialStateIsWhatResetLeaves : Prop :=
  exec .reset State.reset = .next State.reset ∧ State.reset.faults = [] ∧ State.reset.refused = false ∧
  State.reset.main.pc = .gSample ∧ State.reset.armed = false ∧ State.reset.tickPend = false ∧
  State.reset.edgePend = false ∧ State.reset.btnPend = false ∧ State.reset.bctx.active = false ∧
  exec .btn State.reset = .next { State.reset with btnPend := true }

/-- 10_state.md R39, column "written by": an operation that the table does not list for an element leaves that element
as it is. -/
def Obligations.OnlyListedOperationsWriteAnElement : Prop :=
  ∀ (i : Instr) (s t : State), exec i s = .next t →
    (i.mnemonic ∉ ["TICK_SVC", "CLEAR", "RESET"] → t.wt = s.wt) ∧
    (i.mnemonic ∉ ["EDGE_SVC", "CLEAR", "RESET"] → t.low = s.low ∧ t.high = s.high) ∧
    (i.mnemonic ∉ ["ARM", "DISARM", "RESET"] → t.armed = s.armed) ∧
    (i.mnemonic ∉ ["CLK", "CLEAR", "RESET"] → t.winBase = s.winBase ∧ t.capBase = s.capBase) ∧
    (i.mnemonic ∉ ["CLK", "TICK_SVC", "DISARM", "RESET"] → t.tickPend = s.tickPend) ∧
    (i.mnemonic ∉ ["EDGE", "EDGE_SVC", "DISARM", "RESET"] → t.edgePend = s.edgePend) ∧
    (i.mnemonic ∉ ["BTN", "RESET"] → t.btnPend = s.btnPend) ∧
    (i.mnemonic ∉ ["TX_WR", "RESET"] → t.txBuf = s.txBuf) ∧
    (i.mnemonic ∉ ["TX_WR", "BAUD", "RESET"] → t.txFull = s.txFull) ∧
    (i.mnemonic ∉ ["BAUD", "RESET"] → t.txBusy = s.txBusy ∧ t.txShift = s.txShift ∧ t.txIdx = s.txIdx ∧ t.txd = s.txd) ∧
    (i.mnemonic ∉ ["LED_ON", "LED_OFF", "RESET"] → t.led = s.led) ∧
    (i.mnemonic ∉ ["TX_WR"] → t.faults = s.faults) ∧ t.refused = s.refused ∧
    (i.mnemonic ∉ ["RESET"] → t.main = s.main ∧ t.bctx = s.bctx)

/-! ### The control programs -/

/-- 42_host_protocol.md R171, R173: whatever result the oracle offers is taken into MAIN.v; without an offer MAIN has no
step; the gate then compares the 10-bit value with 203, unsigned. -/
def Obligations.SampleAndThresholdGate : Prop :=
  ∀ (s : State) (offer : Option AdcResult) (kt ke : Bool), s.bctx.active = false →
    (s.main.pc = .gSample →
      (∀ v : AdcResult, runTurn (.main (some v) kt ke) s =
        .next { s with main := { s.main with v := some v, pc := .gGate } }) ∧
      (∀ t, runTurn (.main none kt ke) s ≠ .next t)) ∧
    (∀ v : AdcResult, s.main.pc = .gGate → s.main.v = some v →
      (203 ≤ v.toNat → runTurn (.main offer kt ke) s = .next { s with main := { s.main with pc := .gSettle } }) ∧
      (v.toNat < 203 → runTurn (.main offer kt ke) s = .next { s with main := { s.main with pc := .gSample } }))

/-- 42_host_protocol.md R174, R175, R177, R180: settle has no effect on the block (the spec's own reading, D18); G_ARM
issues ARM; G_DISARM issues DISARM with the environment's draws; G_CLEAR issues CLEAR and MAIN returns to G_SAMPLE. -/
def Obligations.MainArmsDisarmsAndClears : Prop :=
  ∀ (s : State) (offer : Option AdcResult) (kt ke : Bool), s.bctx.active = false →
    (s.main.pc = .gSettle → runTurn (.main offer kt ke) s = .next { s with main := { s.main with pc := .gArm } }) ∧
    (s.main.pc = .gArm →
      runTurn (.main offer kt ke) s = .next { s with armed := true, main := { s.main with pc := .gWait } }) ∧
    (s.main.pc = .gDisarm → runTurn (.main offer kt ke) s = .next { s with
      armed := false, tickPend := s.tickPend && kt, edgePend := s.edgePend && ke
      main := { s.main with pc := .gReadLow } }) ∧
    (s.main.pc = .gClear → runTurn (.main offer kt ke) s = .next { s with
      wt := 0, low := 0, high := 0, winBase := 0, capBase := 0, main := { s.main with pc := .gLoop } }) ∧
    (s.main.pc = .gLoop → runTurn (.main offer kt ke) s = .next { s with main := { s.main with pc := .gSample } })

/-- 42_host_protocol.md R176: MAIN reads WT and leaves the wait exactly on the value 25. The field `returned` is the
model's (log 9). -/
def Obligations.WaitEndsOnlyAtTwentyFive : Prop :=
  ∀ (s : State) (offer : Option AdcResult) (kt ke : Bool), s.bctx.active = false →
    (s.main.pc = .gWait → runTurn (.main offer kt ke) s = .next { s with
      trace := s.trace ++ [.read (.wt s.wt)], returned := some (.wt s.wt)
      main := { s.main with t := some s.wt, pc := .gWaitTest } }) ∧
    (∀ t : Word, s.main.pc = .gWaitTest → s.main.t = some t →
      runTurn (.main offer kt ke) s =
        .next { s with main := { s.main with pc := if t = 25 then .gDisarm else .gWait } })

/-- 42_host_protocol.md R178: LOW first, then HIGH, in two steps. The field `returned` is the model's (log 9). -/
def Obligations.MainReadsLowThenHigh : Prop :=
  ∀ (s : State) (offer : Option AdcResult) (kt ke : Bool), s.bctx.active = false →
    (s.main.pc = .gReadLow → runTurn (.main offer kt ke) s = .next { s with
      trace := s.trace ++ [.read (.low s.low)], returned := some (.low s.low)
      main := { s.main with l := some s.low, pc := .gReadHigh } }) ∧
    (s.main.pc = .gReadHigh → runTurn (.main offer kt ke) s = .next { s with
      trace := s.trace ++ [.read (.high s.high)], returned := some (.high s.high)
      main := { s.main with h := some s.high, pc := .gTest } })

/-- 42_host_protocol.md R179: only a pair with a nonzero count is sent; the test is on the full 16-bit copies. -/
def Obligations.ZeroMeasurementIsNotSent : Prop :=
  ∀ (s : State) (offer : Option AdcResult) (kt ke : Bool) (l h : Word),
    s.bctx.active = false → s.main.pc = .gTest → s.main.l = some l → s.main.h = some h →
    (l = 0 → h = 0 → runTurn (.main offer kt ke) s = .next { s with main := { s.main with pc := .gClear } }) ∧
    (0 < l.toNat ∨ 0 < h.toNat →
      runTurn (.main offer kt ke) s = .next { s with main := { s.main with pc := .gSend .ledOn } })

/-- 41_frame_transmitter.md R145, R146, at MAIN: the steps of SEND_FRAME MAIN.l, MAIN.h in order, the low value first,
each cut to its low 8 bits; a poll that reads 0 is repeated. A step asks only for the local it reads to be written. That
each `if` is a step of its own is the model's reading (log 6); the field `returned` is the model's (log 9). -/
def Obligations.SendFrameWritesLowThenHigh : Prop :=
  ∀ (s : State) (offer : Option AdcResult) (kt ke : Bool), s.bctx.active = false →
    (s.main.pc = .gSend .ledOn → runTurn (.main offer kt ke) s = .next { s with
      led := true, trace := s.trace ++ [.led true], main := { s.main with pc := .gSend .poll1 } }) ∧
    (s.main.pc = .gSend .poll1 → runTurn (.main offer kt ke) s = .next { s with
      trace := s.trace ++ [.read (.txrdy (!s.txFull))], returned := some (.txrdy (!s.txFull))
      main := { s.main with r := some (!s.txFull), pc := .gSend .test1 } }) ∧
    (∀ r, s.main.pc = .gSend .test1 → s.main.r = some r → runTurn (.main offer kt ke) s =
      .next { s with main := { s.main with pc := .gSend (if r then .write1 else .poll1) } }) ∧
    (∀ l, s.main.pc = .gSend .write1 → s.main.l = some l → s.txFull = false →
      runTurn (.main offer kt ke) s = .next { s with
        txBuf := BitVec.ofNat 8 (l.toNat % 256), txFull := true, main := { s.main with pc := .gSend .poll2 } }) ∧
    (s.main.pc = .gSend .poll2 → runTurn (.main offer kt ke) s = .next { s with
      trace := s.trace ++ [.read (.txrdy (!s.txFull))], returned := some (.txrdy (!s.txFull))
      main := { s.main with r := some (!s.txFull), pc := .gSend .test2 } }) ∧
    (∀ r, s.main.pc = .gSend .test2 → s.main.r = some r → runTurn (.main offer kt ke) s =
      .next { s with main := { s.main with pc := .gSend (if r then .write2 else .poll2) } }) ∧
    (∀ h, s.main.pc = .gSend .write2 → s.main.h = some h → s.txFull = false →
      runTurn (.main offer kt ke) s = .next { s with
        txBuf := BitVec.ofNat 8 (h.toNat % 256), txFull := true, main := { s.main with pc := .gSend .ledOff } }) ∧
    (s.main.pc = .gSend .ledOff → runTurn (.main offer kt ke) s = .next { s with
      led := false, trace := s.trace ++ [.led false], main := { s.main with pc := .gClear } })

/-- 70_reset_and_hazards.md R250, its two fault rows: MAIN at either TX_WR while the buffer still holds a byte:
TxOverrun, the byte in the buffer kept. That MAIN's control state then moves on is the model's choice (log 17). -/
def Obligations.MainOverrunsFullBuffer : Prop :=
  ∀ (s : State) (offer : Option AdcResult) (kt ke : Bool) (v : Word) (k k' : SendPc),
    s.bctx.active = false → s.main.pc = .gSend k → s.txFull = true →
    (k = .write1 ∧ s.main.l = some v ∧ k' = .poll2) ∨ (k = .write2 ∧ s.main.h = some v ∧ k' = .ledOff) →
    ∃ t, runTurn (.main offer kt ke) s = .next t ∧ FaultName.txOverrun ∈ t.faults ∧
      t = { s with
        faults := t.faults, trace := s.trace ++ [.fault .txOverrun], main := { s.main with pc := .gSend k' } }

/-- 42_host_protocol.md R182: entry when BTNPEND = 1 and BCTX is inactive; with neither flag BCTX has no step. -/
def Obligations.ButtonEntryStartsRestFrame : Prop :=
  ∀ s : State, s.bctx.active = false →
    (s.btnPend = true → runTurn .bctx s = .next { s with
      btnPend := false, bctx := { s.bctx with active := true, pc := .bSend .ledOn } }) ∧
    (s.btnPend = false → ∀ t, runTurn .bctx s ≠ .next t)

/-- 42_host_protocol.md R183, 41_frame_transmitter.md R147, 60_exceptions.md R211: an active BCTX sends the frame 0, 0
step by step and returns at B_RET. Only a test asks for the local r to be written. That each `if` is a step of its own
is the model's reading (log 6); the field `returned` is the model's (log 9). -/
def Obligations.ButtonContextSendsRestFrame : Prop :=
  ∀ s : State, s.bctx.active = true →
    (s.bctx.pc = .bSend .ledOn → runTurn .bctx s = .next { s with
      led := true, trace := s.trace ++ [.led true], bctx := { s.bctx with pc := .bSend .poll1 } }) ∧
    (s.bctx.pc = .bSend .poll1 → runTurn .bctx s = .next { s with
      trace := s.trace ++ [.read (.txrdy (!s.txFull))], returned := some (.txrdy (!s.txFull))
      bctx := { s.bctx with r := some (!s.txFull), pc := .bSend .test1 } }) ∧
    (∀ r, s.bctx.pc = .bSend .test1 → s.bctx.r = some r → runTurn .bctx s =
      .next { s with bctx := { s.bctx with pc := .bSend (if r then .write1 else .poll1) } }) ∧
    (s.bctx.pc = .bSend .write1 → s.txFull = false → runTurn .bctx s = .next { s with
      txBuf := 0, txFull := true, bctx := { s.bctx with pc := .bSend .poll2 } }) ∧
    (s.bctx.pc = .bSend .poll2 → runTurn .bctx s = .next { s with
      trace := s.trace ++ [.read (.txrdy (!s.txFull))], returned := some (.txrdy (!s.txFull))
      bctx := { s.bctx with r := some (!s.txFull), pc := .bSend .test2 } }) ∧
    (∀ r, s.bctx.pc = .bSend .test2 → s.bctx.r = some r → runTurn .bctx s =
      .next { s with bctx := { s.bctx with pc := .bSend (if r then .write2 else .poll2) } }) ∧
    (s.bctx.pc = .bSend .write2 → s.txFull = false → runTurn .bctx s = .next { s with
      txBuf := 0, txFull := true, bctx := { s.bctx with pc := .bSend .ledOff } }) ∧
    (s.bctx.pc = .bSend .ledOff → runTurn .bctx s = .next { s with
      led := false, trace := s.trace ++ [.led false], bctx := { s.bctx with pc := .bRet } }) ∧
    (s.bctx.pc = .bRet → runTurn .bctx s = .next { s with bctx := { s.bctx with active := false } })

/-- 42_host_protocol.md R170, R183: a turn of MAIN moves its control state along the program, and nowhere else; so does
a turn of an active BCTX, which stays active until B_RET. In the programs a test of WAIT_TXRDY is a step of its own
(log 6) and a TX_WR moves on even after TxOverrun (log 17). -/
def Obligations.ContextsFollowTheirPrograms : Prop :=
  (∀ (s t : State) (offer : Option AdcResult) (kt ke : Bool),
    runTurn (.main offer kt ke) s = .next t → t.main.pc ∈ s.main.pc.successors ∧ t.bctx = s.bctx) ∧
  (∀ s t : State, s.bctx.active = true → runTurn .bctx s = .next t →
    t.main = s.main ∧ (s.bctx.pc ≠ .bRet → t.bctx.active = true ∧ t.bctx.pc ∈ s.bctx.pc.successors) ∧
    (s.bctx.pc = .bRet → t.bctx = { s.bctx with active := false }))

/-! ### Whole-machine rules -/

/-- 10_state.md R37: FAULTS and REFUSED start empty and are sticky, RESET included; the only fault added is TxOverrun,
and REFUSED is set exactly by a reserved or ill-formed word. -/
def Obligations.FaultsAndRefusalAreSticky : Prop :=
  State.reset.faults = [] ∧ State.reset.refused = false ∧
  ∀ s t : State, step s = .next t →
    (∀ f, f ∈ s.faults → f ∈ t.faults) ∧ (∀ f, f ∈ t.faults → f ∈ s.faults ∨ f = .txOverrun) ∧
    (t.refused = true ↔ s.refused = true ∨
      ∃ a w, nextTurn s = .issue a w ∧ ∀ i, decode w = .ok i → wellIssued a i = false)

/-- A step appends at most one event to the trace and removes none: the events are those of 00_scope.md R13, and no
pseudocode records two (40_counter_timer.md R100 to R110, 41_frame_transmitter.md R140 to R144, 42_host_protocol.md R181
to R183); a refused word records none (60_exceptions.md R202). That RESET keeps the trace and records nothing is log 8. -/
def Obligations.TraceOnlyGrowsByOneEvent : Prop :=
  ∀ s t : State, step s = .next t → t.trace = s.trace ∨ ∃ e, t.trace = s.trace ++ [e]

/-- 10_state.md R22: the only step that increments WT is TICK_SVC by SVC with TICKPEND set; the only ones that change it
otherwise write 0: RESET by ENV, CLEAR by a host context. -/
def Obligations.WindowTickHasOneIncrementer : Prop :=
  ∀ s t : State, step s = .next t → t.wt ≠ s.wt →
    (t.wt = s.wt + 1 ∧ s.tickPend = true ∧ nextTurn s = .issue .svc 0x3000) ∨
    (t.wt = 0 ∧ (nextTurn s = .issue .env 0x0800 ∨ nextTurn s = .issue .main 0x5000 ∨ nextTurn s = .issue .bctx 0x5000 ∨
      ((nextTurn s).isMain = true ∧ s.main.pc = .gClear)))

/-- 42_host_protocol.md R185 d, 60_exceptions.md R208, R210: while the button context is active MAIN's control state and
locals stay as they are, in every step but RESET. -/
def Obligations.ActiveButtonContextHoldsMain : Prop :=
  ∀ s t : State, s.bctx.active = true → step s = .next t → nextTurn s ≠ .issue .env 0x0800 → t.main = s.main

/-- 42_host_protocol.md R183: the button context touches no counter, no time base, no capture or tick flag, and not
MAIN. -/
def Obligations.ButtonContextTouchesNoCounter : Prop :=
  ∀ s t : State, nextTurn s = .bctx → step s = .next t →
    t.wt = s.wt ∧ t.low = s.low ∧ t.high = s.high ∧ t.winBase = s.winBase ∧ t.capBase = s.capBase ∧
    t.armed = s.armed ∧ t.tickPend = s.tickPend ∧ t.edgePend = s.edgePend ∧ t.main = s.main

/-- 60_exceptions.md R206, R207: a pending flag becomes set only by its event: TICKPEND by an armed CLK that wraps,
EDGEPEND by an armed EDGE, BTNPEND by BTN. -/
def Obligations.PendingFlagsAreSetByEventsOnly : Prop :=
  ∀ s t : State, step s = .next t →
    (t.tickPend = true → s.tickPend = true ∨
      (s.armed = true ∧ s.winBase = 9999 ∧ nextTurn s = .issue .env 0x1000)) ∧
    (t.edgePend = true → s.edgePend = true ∨ (s.armed = true ∧ nextTurn s = .issue .env 0x1800)) ∧
    (t.btnPend = true → s.btnPend = true ∨ nextTurn s = .issue .env 0x2000)

/-- 42_host_protocol.md R185, R171, R182: the turns a free choice is made from are exactly the ones that step, in every
state whose needed locals are written; and the free choice is one of them (log 2). -/
def Obligations.EnabledTurnsAreThoseThatStep : Prop :=
  (∀ s : State, chooseTurn s ∈ freeTurns s) ∧
  ∀ (s : State) (offer : Option AdcResult) (kt ke : Bool), s.LocalsReady →
    ∀ t ∈ [Turn.issue .env 0x0800, .issue .env 0x1000, .issue .env 0x1800, .issue .env 0x2000, .issue .env 0x2800,
        .issue .svc 0x3000, .issue .svc 0x3800, .bctx, .main offer kt ke],
      (t ∈ enabledTurns offer kt ke s ↔ ∃ u, runTurn t s = .next u)

/-! ### Invariants -/

/-- 10_state.md R23, R27, R34, R35, R39: every step keeps the registers in their legal ranges, the line equal to the bit
the shift register says, and the start and stop bits of a character. -/
def Obligations.StepKeepsLegalRegisters : Prop := ∀ s t : State, s.Legal → step s = .next t → t.Legal

/-- The initial state meets the invariants stated here, what a silent run needs included. -/
def Obligations.InitialStateMeetsTheInvariants : Prop :=
  State.reset.Legal ∧ State.reset.LocalsReady ∧ State.reset.MainBufferFree ∧ State.reset.BctxBufferFree ∧
  State.reset.Silent

/-- 42_host_protocol.md R192, R187 (derived there): while no signal is present and no button is pressed, no step arms the
timers, writes a byte, turns the LED on or moves a counter, and the line stays at 1. -/
def Obligations.NoSignalRunStaysSilent : Prop :=
  ∀ s t : State, s.Silent → (nextTurn s).bringsNoSignal = true → step s = .next t →
    t.Silent ∧ t.faults = s.faults ∧ (t.trace = s.trace ∨ t.trace = s.trace ++ [.line true])

/-- 10_state.md R38: every step keeps the host locals that the control states need written. -/
def Obligations.StepKeepsNeededLocalsWritten : Prop := ∀ s t : State, s.LocalsReady → step s = .next t → t.LocalsReady

/-- 10_state.md R38: no step of the machine faults on an unwritten local, and a freely chosen step always answers a next
state. -/
def Obligations.NoStepReadsAnUnwrittenLocal : Prop :=
  ∀ s : State, s.LocalsReady → (∀ f, step s ≠ .fault f) ∧ (s.schedule = [] → ∃ t, step s = .next t)

/-- 41_frame_transmitter.md R141, R145, 42_host_protocol.md R185 d: the button context never overruns the transmit
buffer: while no host context issues words outside its program, its steps add no fault and the condition holds on. -/
def Obligations.ButtonContextNeverOverruns : Prop :=
  ∀ s t : State, s.BctxBufferFree → (nextTurn s).followsPrograms = true → step s = .next t →
    t.BctxBufferFree ∧ (nextTurn s = .bctx → t.faults = s.faults)

/-- 41_frame_transmitter.md R141, R148, 60_exceptions.md R201: TxOverrun needs the preemption hazard: in steps the button
context does not take, MAIN's program adds no fault and the condition holds on. -/
def Obligations.OverrunNeedsButtonPreemption : Prop :=
  ∀ s t : State, s.MainBufferFree → (nextTurn s).notButton = true → step s = .next t →
    t.MainBufferFree ∧ t.faults = s.faults

/-- 40_counter_timer.md R115 (derived there): no outcome of a step depends on CAPBASE. -/
def Obligations.CapBaseIsNeverRead : Prop :=
  ∀ (s : State) (c : Word),
    (∀ t, step s = .next t → ∃ d, step { s with capBase := c } = .next { t with capBase := d }) ∧
    (∀ f, step s = .fault f → step { s with capBase := c } = .fault f) ∧
    (∀ r, step s = .refused r → step { s with capBase := c } = .refused r)

/-! ### Laws over sequences of operations -/

/-- 40_counter_timer.md R111 (derived there from R104), 10_state.md R25: from LOW = HIGH = 0, after any operations
without CLEAR and RESET, N of them EDGE_SVC, LOW = N mod 250 and HIGH = (N div 250) mod 2^16, and TotalEdges = N below
16 384 000. -/
def Obligations.RolloverLaw : Prop :=
  ∀ (ops : List Instr) (s t : State), s.low = 0 → s.high = 0 → (∀ i ∈ ops, i.keepsCounts = true) →
    execAll ops s = .next t →
    t.low.toNat = ops.count .edgeSvc % 250 ∧ t.high.toNat = ops.count .edgeSvc / 250 % 65536 ∧
    (ops.count .edgeSvc < 16384000 → t.totalEdges = ops.count .edgeSvc)

/-- 40_counter_timer.md R101, R104, R111: while armed, n edges each serviced before the next are all counted, none is
lost, and every one of these operations takes its step. -/
def Obligations.ServicedEdgesAreAllCounted : Prop :=
  ∀ (n : Nat) (s : State), s.armed = true → s.edgePend = false → s.low = 0 → s.high = 0 →
    ∃ t, execAll (List.replicate n [Instr.edge, .edgeSvc]).flatten s = .next t ∧
      t.low.toNat = n % 250 ∧ t.high.toNat = n / 250 % 65536 ∧ t.edgePend = false ∧ t.trace = s.trace

/-- 40_counter_timer.md R113 (derived there from R100 and R103): from WINBASE = 0, WT = 0 and no tick pending, armed
throughout, after operations with N CLKs the time base is N mod 10000, and every one of the N div 10000 wraps is serviced,
pending or recorded as lost; so WT = 25 needs at least 250 000 CLKs. -/
def Obligations.TickTimingLaw : Prop :=
  ∀ (ops : List Instr) (s t : State), s.armed = true → s.winBase = 0 → s.wt = 0 → s.tickPend = false →
    (∀ i ∈ ops, i.keepsWindow = true) → execAll ops s = .next t →
    t.armed = true ∧ t.winBase.toNat = ops.count .clk % 10000 ∧ t.wt.toNat = ops.count .tickSvc % 65536 ∧
    ops.count .tickSvc + t.tickPend.toNat + t.trace.count .lostTick = ops.count .clk / 10000 + s.trace.count .lostTick ∧
    (25 ≤ t.wt.toNat → 250000 ≤ ops.count .clk)

/-- 40_counter_timer.md R112 (derived there from R101, R104 and R106): while armed every EDGE is counted, lost, still
pending, or dropped by the DISARM with ke = 0 that ends the window. -/
def Obligations.EdgeAccounting : Prop :=
  ∀ (ops : List Instr) (s t u : State) (kt ke : Bool), s.armed = true → s.edgePend = false → s.low = 0 → s.high = 0 →
    (∀ i ∈ ops, i.keepsWindow = true) → execAll ops s = .next t → exec (.disarm kt ke) t = .next u →
    ops.count .edge + s.trace.count .lostEdge =
      ops.count .edgeSvc + u.trace.count .lostEdge + u.edgePend.toNat + (t.edgePend && !ke).toNat ∧
    (ops.count .edgeSvc < 16384000 → u.totalEdges = ops.count .edgeSvc) ∧ u.armed = false

/-- 30_encoding.md R71, 41_frame_transmitter.md R142: a byte written to an idle transmitter appears on the line in ten
bit times: start bit 0, data bits least significant first, stop bit 1; the eleventh finds the line idle. -/
def Obligations.CharacterLineImage : Prop :=
  ∀ (b : Byte) (s : State), s.txBusy = false → s.txFull = false →
    ∃ t u, execAll (.txWr b :: List.replicate 10 .baud) s = .next t ∧
      lineLevels t.trace = lineLevels s.trace ++
        [false, b.getLsbD 0, b.getLsbD 1, b.getLsbD 2, b.getLsbD 3, b.getLsbD 4, b.getLsbD 5, b.getLsbD 6, b.getLsbD 7,
          true] ∧
      exec .baud t = .next u ∧ u.txBusy = false ∧ u.txd = true ∧ lineLevels u.trace = lineLevels t.trace ++ [true]

/-- 41_frame_transmitter.md R149 (derived there), 30_encoding.md R72, for a frame that starts on an idle transmitter:
byte0 then byte1; the second byte written within byte0's character follows with no idle bit, written j bit times after
it follows j idle bits. -/
def Obligations.FrameLineImage : Prop :=
  ∀ (a b : Byte) (s : State), s.txBusy = false → s.txFull = false →
    (∀ m, m ≤ 9 → ∃ t, execAll
        (.txWr a :: List.replicate (m + 1) .baud ++ .txWr b :: List.replicate (19 - m) .baud) s = .next t ∧
      lineLevels t.trace = lineLevels s.trace ++ charLevels a ++ charLevels b ∧ t.faults = s.faults) ∧
    (∀ j, ∃ t, execAll
        (.txWr a :: List.replicate (10 + j) .baud ++ .txWr b :: List.replicate 10 .baud) s = .next t ∧
      lineLevels t.trace = lineLevels s.trace ++ charLevels a ++ List.replicate j true ++ charLevels b ∧
      t.faults = s.faults)

/-- 70_reset_and_hazards.md R253 (derived there): an edge kept pending by DISARM and serviced between the two reads
makes the pair read 250 edges too many; an edge or a tick serviced after the reads and before CLEAR is wiped; serviced
after CLEAR the next window starts with LOW = 1 or WT = 1. -/
def Obligations.PendingAcrossDisarmHazard : Prop :=
  ∀ s : State,
    (∀ kt, s.edgePend = true →
      (s.low = 249 → ∃ t, execAll [.disarm kt true, .rdLow, .edgeSvc, .rdHigh] s = .next t ∧
        t.trace = s.trace ++ [.read (.low 249), .read (.high (s.high + 1))] ∧ t.low = 0) ∧
      (∃ t, execAll [.disarm kt true, .rdLow, .rdHigh, .edgeSvc, .clear] s = .next t ∧
        t.low = 0 ∧ t.high = 0 ∧ t.edgePend = false) ∧
      (∃ t, execAll [.disarm kt true, .clear, .edgeSvc] s = .next t ∧ t.low = 1 ∧ t.high = 0)) ∧
    (∀ ke, s.tickPend = true →
      (∃ t, execAll [.disarm true ke, .rdLow, .rdHigh, .tickSvc, .clear] s = .next t ∧
        t.wt = 0 ∧ t.tickPend = false) ∧
      (∃ t, execAll [.disarm true ke, .clear, .tickSvc] s = .next t ∧ t.wt = 1))

/-! ### The receiver's contract -/

/-- 42_host_protocol.md R190, R191, 20_memory.md R58, R60: the receiver reads LOW and HIGH modulo 256; when HIGH < 256
that is the accumulator, and the frequency is four times the count; a pair with LOW = 0 and HIGH a multiple of 256 is a
rest. -/
def Obligations.ReceiverReadsLowByteOfHigh : Prop :=
  ∀ s : State, s.Legal → ∃ f, receivedFrames (frameBytes s.low s.high) = [f] ∧
    receivedEdges f = s.high.toNat % 256 * 250 + s.low.toNat ∧ receivedHz f = 4 * receivedEdges f ∧
    (s.high.toNat < 256 → receivedEdges f = s.totalEdges) ∧ (isRest f = true ↔ s.low = 0 ∧ 256 ∣ s.high.toNat)
end

