-- ==== Sys2Proof/Laws/State.lean ====
section
/-!
SUPPORT. The small lemmas of the named updates of State: one per field per update.
-/

namespace Sys2Proof.Machine

variable (s : State)

@[simp] theorem State.record_wt (e : Event) : (s.record e).wt = s.wt := rfl
@[simp] theorem State.record_low (e : Event) : (s.record e).low = s.low := rfl
@[simp] theorem State.record_high (e : Event) : (s.record e).high = s.high := rfl
@[simp] theorem State.record_armed (e : Event) : (s.record e).armed = s.armed := rfl
@[simp] theorem State.record_winBase (e : Event) : (s.record e).winBase = s.winBase := rfl
@[simp] theorem State.record_capBase (e : Event) : (s.record e).capBase = s.capBase := rfl
@[simp] theorem State.record_tickPend (e : Event) : (s.record e).tickPend = s.tickPend := rfl
@[simp] theorem State.record_edgePend (e : Event) : (s.record e).edgePend = s.edgePend := rfl
@[simp] theorem State.record_btnPend (e : Event) : (s.record e).btnPend = s.btnPend := rfl
@[simp] theorem State.record_txBuf (e : Event) : (s.record e).txBuf = s.txBuf := rfl
@[simp] theorem State.record_txFull (e : Event) : (s.record e).txFull = s.txFull := rfl
@[simp] theorem State.record_txBusy (e : Event) : (s.record e).txBusy = s.txBusy := rfl
@[simp] theorem State.record_txShift (e : Event) : (s.record e).txShift = s.txShift := rfl
@[simp] theorem State.record_txIdx (e : Event) : (s.record e).txIdx = s.txIdx := rfl
@[simp] theorem State.record_txd (e : Event) : (s.record e).txd = s.txd := rfl
@[simp] theorem State.record_led (e : Event) : (s.record e).led = s.led := rfl
@[simp] theorem State.record_faults (e : Event) : (s.record e).faults = s.faults := rfl
@[simp] theorem State.record_refused (e : Event) : (s.record e).refused = s.refused := rfl
@[simp] theorem State.record_main (e : Event) : (s.record e).main = s.main := rfl
@[simp] theorem State.record_bctx (e : Event) : (s.record e).bctx = s.bctx := rfl
@[simp] theorem State.record_trace (e : Event) : (s.record e).trace = s.trace ++ [e] := rfl
@[simp] theorem State.record_returned (e : Event) : (s.record e).returned = s.returned := rfl
@[simp] theorem State.record_schedule (e : Event) : (s.record e).schedule = s.schedule := rfl
@[simp] theorem State.record_draws (e : Event) : (s.record e).draws = s.draws := rfl

@[simp] theorem State.answerRead_wt (v : ReadValue) : (s.answerRead v).wt = s.wt := rfl
@[simp] theorem State.answerRead_low (v : ReadValue) : (s.answerRead v).low = s.low := rfl
@[simp] theorem State.answerRead_high (v : ReadValue) : (s.answerRead v).high = s.high := rfl
@[simp] theorem State.answerRead_armed (v : ReadValue) : (s.answerRead v).armed = s.armed := rfl
@[simp] theorem State.answerRead_winBase (v : ReadValue) : (s.answerRead v).winBase = s.winBase := rfl
@[simp] theorem State.answerRead_capBase (v : ReadValue) : (s.answerRead v).capBase = s.capBase := rfl
@[simp] theorem State.answerRead_tickPend (v : ReadValue) : (s.answerRead v).tickPend = s.tickPend := rfl
@[simp] theorem State.answerRead_edgePend (v : ReadValue) : (s.answerRead v).edgePend = s.edgePend := rfl
@[simp] theorem State.answerRead_btnPend (v : ReadValue) : (s.answerRead v).btnPend = s.btnPend := rfl
@[simp] theorem State.answerRead_txBuf (v : ReadValue) : (s.answerRead v).txBuf = s.txBuf := rfl
@[simp] theorem State.answerRead_txFull (v : ReadValue) : (s.answerRead v).txFull = s.txFull := rfl
@[simp] theorem State.answerRead_txBusy (v : ReadValue) : (s.answerRead v).txBusy = s.txBusy := rfl
@[simp] theorem State.answerRead_txShift (v : ReadValue) : (s.answerRead v).txShift = s.txShift := rfl
@[simp] theorem State.answerRead_txIdx (v : ReadValue) : (s.answerRead v).txIdx = s.txIdx := rfl
@[simp] theorem State.answerRead_txd (v : ReadValue) : (s.answerRead v).txd = s.txd := rfl
@[simp] theorem State.answerRead_led (v : ReadValue) : (s.answerRead v).led = s.led := rfl
@[simp] theorem State.answerRead_faults (v : ReadValue) : (s.answerRead v).faults = s.faults := rfl
@[simp] theorem State.answerRead_refused (v : ReadValue) : (s.answerRead v).refused = s.refused := rfl
@[simp] theorem State.answerRead_main (v : ReadValue) : (s.answerRead v).main = s.main := rfl
@[simp] theorem State.answerRead_bctx (v : ReadValue) : (s.answerRead v).bctx = s.bctx := rfl
@[simp] theorem State.answerRead_trace (v : ReadValue) : (s.answerRead v).trace = s.trace ++ [.read v] := rfl
@[simp] theorem State.answerRead_returned (v : ReadValue) : (s.answerRead v).returned = some v := rfl
@[simp] theorem State.answerRead_schedule (v : ReadValue) : (s.answerRead v).schedule = s.schedule := rfl
@[simp] theorem State.answerRead_draws (v : ReadValue) : (s.answerRead v).draws = s.draws := rfl

@[simp] theorem State.raiseFault_wt (f : FaultName) : (s.raiseFault f).wt = s.wt := rfl
@[simp] theorem State.raiseFault_low (f : FaultName) : (s.raiseFault f).low = s.low := rfl
@[simp] theorem State.raiseFault_high (f : FaultName) : (s.raiseFault f).high = s.high := rfl
@[simp] theorem State.raiseFault_armed (f : FaultName) : (s.raiseFault f).armed = s.armed := rfl
@[simp] theorem State.raiseFault_winBase (f : FaultName) : (s.raiseFault f).winBase = s.winBase := rfl
@[simp] theorem State.raiseFault_capBase (f : FaultName) : (s.raiseFault f).capBase = s.capBase := rfl
@[simp] theorem State.raiseFault_tickPend (f : FaultName) : (s.raiseFault f).tickPend = s.tickPend := rfl
@[simp] theorem State.raiseFault_edgePend (f : FaultName) : (s.raiseFault f).edgePend = s.edgePend := rfl
@[simp] theorem State.raiseFault_btnPend (f : FaultName) : (s.raiseFault f).btnPend = s.btnPend := rfl
@[simp] theorem State.raiseFault_txBuf (f : FaultName) : (s.raiseFault f).txBuf = s.txBuf := rfl
@[simp] theorem State.raiseFault_txFull (f : FaultName) : (s.raiseFault f).txFull = s.txFull := rfl
@[simp] theorem State.raiseFault_txBusy (f : FaultName) : (s.raiseFault f).txBusy = s.txBusy := rfl
@[simp] theorem State.raiseFault_txShift (f : FaultName) : (s.raiseFault f).txShift = s.txShift := rfl
@[simp] theorem State.raiseFault_txIdx (f : FaultName) : (s.raiseFault f).txIdx = s.txIdx := rfl
@[simp] theorem State.raiseFault_txd (f : FaultName) : (s.raiseFault f).txd = s.txd := rfl
@[simp] theorem State.raiseFault_led (f : FaultName) : (s.raiseFault f).led = s.led := rfl
@[simp] theorem State.raiseFault_faults (f : FaultName) : (s.raiseFault f).faults = if s.faults.contains f then s.faults else s.faults ++ [f] := rfl
@[simp] theorem State.raiseFault_refused (f : FaultName) : (s.raiseFault f).refused = s.refused := rfl
@[simp] theorem State.raiseFault_main (f : FaultName) : (s.raiseFault f).main = s.main := rfl
@[simp] theorem State.raiseFault_bctx (f : FaultName) : (s.raiseFault f).bctx = s.bctx := rfl
@[simp] theorem State.raiseFault_trace (f : FaultName) : (s.raiseFault f).trace = s.trace ++ [.fault f] := rfl
@[simp] theorem State.raiseFault_returned (f : FaultName) : (s.raiseFault f).returned = s.returned := rfl
@[simp] theorem State.raiseFault_schedule (f : FaultName) : (s.raiseFault f).schedule = s.schedule := rfl
@[simp] theorem State.raiseFault_draws (f : FaultName) : (s.raiseFault f).draws = s.draws := rfl

@[simp] theorem State.markRefused_wt : (s.markRefused).wt = s.wt := rfl
@[simp] theorem State.markRefused_low : (s.markRefused).low = s.low := rfl
@[simp] theorem State.markRefused_high : (s.markRefused).high = s.high := rfl
@[simp] theorem State.markRefused_armed : (s.markRefused).armed = s.armed := rfl
@[simp] theorem State.markRefused_winBase : (s.markRefused).winBase = s.winBase := rfl
@[simp] theorem State.markRefused_capBase : (s.markRefused).capBase = s.capBase := rfl
@[simp] theorem State.markRefused_tickPend : (s.markRefused).tickPend = s.tickPend := rfl
@[simp] theorem State.markRefused_edgePend : (s.markRefused).edgePend = s.edgePend := rfl
@[simp] theorem State.markRefused_btnPend : (s.markRefused).btnPend = s.btnPend := rfl
@[simp] theorem State.markRefused_txBuf : (s.markRefused).txBuf = s.txBuf := rfl
@[simp] theorem State.markRefused_txFull : (s.markRefused).txFull = s.txFull := rfl
@[simp] theorem State.markRefused_txBusy : (s.markRefused).txBusy = s.txBusy := rfl
@[simp] theorem State.markRefused_txShift : (s.markRefused).txShift = s.txShift := rfl
@[simp] theorem State.markRefused_txIdx : (s.markRefused).txIdx = s.txIdx := rfl
@[simp] theorem State.markRefused_txd : (s.markRefused).txd = s.txd := rfl
@[simp] theorem State.markRefused_led : (s.markRefused).led = s.led := rfl
@[simp] theorem State.markRefused_faults : (s.markRefused).faults = s.faults := rfl
@[simp] theorem State.markRefused_refused : (s.markRefused).refused = true := rfl
@[simp] theorem State.markRefused_main : (s.markRefused).main = s.main := rfl
@[simp] theorem State.markRefused_bctx : (s.markRefused).bctx = s.bctx := rfl
@[simp] theorem State.markRefused_trace : (s.markRefused).trace = s.trace := rfl
@[simp] theorem State.markRefused_returned : (s.markRefused).returned = s.returned := rfl
@[simp] theorem State.markRefused_schedule : (s.markRefused).schedule = s.schedule := rfl
@[simp] theorem State.markRefused_draws : (s.markRefused).draws = s.draws := rfl

@[simp] theorem State.enterButton_wt : (s.enterButton).wt = s.wt := rfl
@[simp] theorem State.enterButton_low : (s.enterButton).low = s.low := rfl
@[simp] theorem State.enterButton_high : (s.enterButton).high = s.high := rfl
@[simp] theorem State.enterButton_armed : (s.enterButton).armed = s.armed := rfl
@[simp] theorem State.enterButton_winBase : (s.enterButton).winBase = s.winBase := rfl
@[simp] theorem State.enterButton_capBase : (s.enterButton).capBase = s.capBase := rfl
@[simp] theorem State.enterButton_tickPend : (s.enterButton).tickPend = s.tickPend := rfl
@[simp] theorem State.enterButton_edgePend : (s.enterButton).edgePend = s.edgePend := rfl
@[simp] theorem State.enterButton_btnPend : (s.enterButton).btnPend = false := rfl
@[simp] theorem State.enterButton_txBuf : (s.enterButton).txBuf = s.txBuf := rfl
@[simp] theorem State.enterButton_txFull : (s.enterButton).txFull = s.txFull := rfl
@[simp] theorem State.enterButton_txBusy : (s.enterButton).txBusy = s.txBusy := rfl
@[simp] theorem State.enterButton_txShift : (s.enterButton).txShift = s.txShift := rfl
@[simp] theorem State.enterButton_txIdx : (s.enterButton).txIdx = s.txIdx := rfl
@[simp] theorem State.enterButton_txd : (s.enterButton).txd = s.txd := rfl
@[simp] theorem State.enterButton_led : (s.enterButton).led = s.led := rfl
@[simp] theorem State.enterButton_faults : (s.enterButton).faults = s.faults := rfl
@[simp] theorem State.enterButton_refused : (s.enterButton).refused = s.refused := rfl
@[simp] theorem State.enterButton_main : (s.enterButton).main = s.main := rfl
@[simp] theorem State.enterButton_bctx : (s.enterButton).bctx = { s.bctx with active := true, pc := .bSend .ledOn } := rfl
@[simp] theorem State.enterButton_trace : (s.enterButton).trace = s.trace := rfl
@[simp] theorem State.enterButton_returned : (s.enterButton).returned = s.returned := rfl
@[simp] theorem State.enterButton_schedule : (s.enterButton).schedule = s.schedule := rfl
@[simp] theorem State.enterButton_draws : (s.enterButton).draws = s.draws := rfl

@[simp] theorem State.returnFromButton_wt : (s.returnFromButton).wt = s.wt := rfl
@[simp] theorem State.returnFromButton_low : (s.returnFromButton).low = s.low := rfl
@[simp] theorem State.returnFromButton_high : (s.returnFromButton).high = s.high := rfl
@[simp] theorem State.returnFromButton_armed : (s.returnFromButton).armed = s.armed := rfl
@[simp] theorem State.returnFromButton_winBase : (s.returnFromButton).winBase = s.winBase := rfl
@[simp] theorem State.returnFromButton_capBase : (s.returnFromButton).capBase = s.capBase := rfl
@[simp] theorem State.returnFromButton_tickPend : (s.returnFromButton).tickPend = s.tickPend := rfl
@[simp] theorem State.returnFromButton_edgePend : (s.returnFromButton).edgePend = s.edgePend := rfl
@[simp] theorem State.returnFromButton_btnPend : (s.returnFromButton).btnPend = s.btnPend := rfl
@[simp] theorem State.returnFromButton_txBuf : (s.returnFromButton).txBuf = s.txBuf := rfl
@[simp] theorem State.returnFromButton_txFull : (s.returnFromButton).txFull = s.txFull := rfl
@[simp] theorem State.returnFromButton_txBusy : (s.returnFromButton).txBusy = s.txBusy := rfl
@[simp] theorem State.returnFromButton_txShift : (s.returnFromButton).txShift = s.txShift := rfl
@[simp] theorem State.returnFromButton_txIdx : (s.returnFromButton).txIdx = s.txIdx := rfl
@[simp] theorem State.returnFromButton_txd : (s.returnFromButton).txd = s.txd := rfl
@[simp] theorem State.returnFromButton_led : (s.returnFromButton).led = s.led := rfl
@[simp] theorem State.returnFromButton_faults : (s.returnFromButton).faults = s.faults := rfl
@[simp] theorem State.returnFromButton_refused : (s.returnFromButton).refused = s.refused := rfl
@[simp] theorem State.returnFromButton_main : (s.returnFromButton).main = s.main := rfl
@[simp] theorem State.returnFromButton_bctx : (s.returnFromButton).bctx = { s.bctx with active := false } := rfl
@[simp] theorem State.returnFromButton_trace : (s.returnFromButton).trace = s.trace := rfl
@[simp] theorem State.returnFromButton_returned : (s.returnFromButton).returned = s.returned := rfl
@[simp] theorem State.returnFromButton_schedule : (s.returnFromButton).schedule = s.schedule := rfl
@[simp] theorem State.returnFromButton_draws : (s.returnFromButton).draws = s.draws := rfl

@[simp] theorem State.mainGoto_wt (pc : MainPc) : (s.mainGoto pc).wt = s.wt := rfl
@[simp] theorem State.mainGoto_low (pc : MainPc) : (s.mainGoto pc).low = s.low := rfl
@[simp] theorem State.mainGoto_high (pc : MainPc) : (s.mainGoto pc).high = s.high := rfl
@[simp] theorem State.mainGoto_armed (pc : MainPc) : (s.mainGoto pc).armed = s.armed := rfl
@[simp] theorem State.mainGoto_winBase (pc : MainPc) : (s.mainGoto pc).winBase = s.winBase := rfl
@[simp] theorem State.mainGoto_capBase (pc : MainPc) : (s.mainGoto pc).capBase = s.capBase := rfl
@[simp] theorem State.mainGoto_tickPend (pc : MainPc) : (s.mainGoto pc).tickPend = s.tickPend := rfl
@[simp] theorem State.mainGoto_edgePend (pc : MainPc) : (s.mainGoto pc).edgePend = s.edgePend := rfl
@[simp] theorem State.mainGoto_btnPend (pc : MainPc) : (s.mainGoto pc).btnPend = s.btnPend := rfl
@[simp] theorem State.mainGoto_txBuf (pc : MainPc) : (s.mainGoto pc).txBuf = s.txBuf := rfl
@[simp] theorem State.mainGoto_txFull (pc : MainPc) : (s.mainGoto pc).txFull = s.txFull := rfl
@[simp] theorem State.mainGoto_txBusy (pc : MainPc) : (s.mainGoto pc).txBusy = s.txBusy := rfl
@[simp] theorem State.mainGoto_txShift (pc : MainPc) : (s.mainGoto pc).txShift = s.txShift := rfl
@[simp] theorem State.mainGoto_txIdx (pc : MainPc) : (s.mainGoto pc).txIdx = s.txIdx := rfl
@[simp] theorem State.mainGoto_txd (pc : MainPc) : (s.mainGoto pc).txd = s.txd := rfl
@[simp] theorem State.mainGoto_led (pc : MainPc) : (s.mainGoto pc).led = s.led := rfl
@[simp] theorem State.mainGoto_faults (pc : MainPc) : (s.mainGoto pc).faults = s.faults := rfl
@[simp] theorem State.mainGoto_refused (pc : MainPc) : (s.mainGoto pc).refused = s.refused := rfl
@[simp] theorem State.mainGoto_main (pc : MainPc) : (s.mainGoto pc).main = { s.main with pc := pc } := rfl
@[simp] theorem State.mainGoto_bctx (pc : MainPc) : (s.mainGoto pc).bctx = s.bctx := rfl
@[simp] theorem State.mainGoto_trace (pc : MainPc) : (s.mainGoto pc).trace = s.trace := rfl
@[simp] theorem State.mainGoto_returned (pc : MainPc) : (s.mainGoto pc).returned = s.returned := rfl
@[simp] theorem State.mainGoto_schedule (pc : MainPc) : (s.mainGoto pc).schedule = s.schedule := rfl
@[simp] theorem State.mainGoto_draws (pc : MainPc) : (s.mainGoto pc).draws = s.draws := rfl

@[simp] theorem State.bctxGoto_wt (pc : BctxPc) : (s.bctxGoto pc).wt = s.wt := rfl
@[simp] theorem State.bctxGoto_low (pc : BctxPc) : (s.bctxGoto pc).low = s.low := rfl
@[simp] theorem State.bctxGoto_high (pc : BctxPc) : (s.bctxGoto pc).high = s.high := rfl
@[simp] theorem State.bctxGoto_armed (pc : BctxPc) : (s.bctxGoto pc).armed = s.armed := rfl
@[simp] theorem State.bctxGoto_winBase (pc : BctxPc) : (s.bctxGoto pc).winBase = s.winBase := rfl
@[simp] theorem State.bctxGoto_capBase (pc : BctxPc) : (s.bctxGoto pc).capBase = s.capBase := rfl
@[simp] theorem State.bctxGoto_tickPend (pc : BctxPc) : (s.bctxGoto pc).tickPend = s.tickPend := rfl
@[simp] theorem State.bctxGoto_edgePend (pc : BctxPc) : (s.bctxGoto pc).edgePend = s.edgePend := rfl
@[simp] theorem State.bctxGoto_btnPend (pc : BctxPc) : (s.bctxGoto pc).btnPend = s.btnPend := rfl
@[simp] theorem State.bctxGoto_txBuf (pc : BctxPc) : (s.bctxGoto pc).txBuf = s.txBuf := rfl
@[simp] theorem State.bctxGoto_txFull (pc : BctxPc) : (s.bctxGoto pc).txFull = s.txFull := rfl
@[simp] theorem State.bctxGoto_txBusy (pc : BctxPc) : (s.bctxGoto pc).txBusy = s.txBusy := rfl
@[simp] theorem State.bctxGoto_txShift (pc : BctxPc) : (s.bctxGoto pc).txShift = s.txShift := rfl
@[simp] theorem State.bctxGoto_txIdx (pc : BctxPc) : (s.bctxGoto pc).txIdx = s.txIdx := rfl
@[simp] theorem State.bctxGoto_txd (pc : BctxPc) : (s.bctxGoto pc).txd = s.txd := rfl
@[simp] theorem State.bctxGoto_led (pc : BctxPc) : (s.bctxGoto pc).led = s.led := rfl
@[simp] theorem State.bctxGoto_faults (pc : BctxPc) : (s.bctxGoto pc).faults = s.faults := rfl
@[simp] theorem State.bctxGoto_refused (pc : BctxPc) : (s.bctxGoto pc).refused = s.refused := rfl
@[simp] theorem State.bctxGoto_main (pc : BctxPc) : (s.bctxGoto pc).main = s.main := rfl
@[simp] theorem State.bctxGoto_bctx (pc : BctxPc) : (s.bctxGoto pc).bctx = { s.bctx with pc := pc } := rfl
@[simp] theorem State.bctxGoto_trace (pc : BctxPc) : (s.bctxGoto pc).trace = s.trace := rfl
@[simp] theorem State.bctxGoto_returned (pc : BctxPc) : (s.bctxGoto pc).returned = s.returned := rfl
@[simp] theorem State.bctxGoto_schedule (pc : BctxPc) : (s.bctxGoto pc).schedule = s.schedule := rfl
@[simp] theorem State.bctxGoto_draws (pc : BctxPc) : (s.bctxGoto pc).draws = s.draws := rfl

end Sys2Proof.Machine
end

