-- ==== Sys2Proof/Laws/Ops.lean ====
section
/-!
SUPPORT. What each shared operation can do, said once: chaining, reading a local, latching an event, the parts of CLK,
EDGE_SVC and BAUD; and for each operation the one lemma that says when it answers a next state and which.
-/

namespace Sys2Proof.Machine

/-! ### Chaining -/

section Chaining

variable {α β : Type}

@[simp] theorem andThen_next (a : α) (f : α → Result β) : andThen (.next a) f = f a := rfl
@[simp] theorem andThen_fault (r : Fault) (f : α → Result β) : andThen (.fault r) f = .fault r := rfl
@[simp] theorem andThen_refused (r : Refusal) (f : α → Result β) : andThen (.refused r) f = .refused r := rfl

/-- A chained step answers a next state exactly if both parts do. -/
theorem andThen_eq_next {o : Result α} {f : α → Result β} {b : β} :
    andThen o f = .next b ↔ ∃ a, o = .next a ∧ f a = .next b := by
  cases o <;> simp

/-- A chained step faults exactly if its first part does, or its second part does. -/
theorem andThen_eq_fault {o : Result α} {f : α → Result β} {r : Fault} :
    andThen o f = .fault r ↔ o = .fault r ∨ ∃ a, o = .next a ∧ f a = .fault r := by
  cases o <;> simp

@[simp] theorem withLocal_some (x : HostLocal) (a : α) (f : α → Result β) : withLocal x (some a) f = f a := rfl
@[simp] theorem withLocal_none (x : HostLocal) (f : α → Result β) :
    withLocal x none f = .fault (.unwrittenLocal x) := rfl

/-- A step that reads a local answers a next state exactly if the local is written and the rest does. -/
theorem withLocal_eq_next {x : HostLocal} {v : Option α} {f : α → Result β} {b : β} :
    withLocal x v f = .next b ↔ ∃ a, v = some a ∧ f a = .next b := by
  cases v <;> simp

/-- A step that reads a local faults exactly if the local is unwritten, or the rest faults. -/
theorem withLocal_eq_fault {x : HostLocal} {v : Option α} {f : α → Result β} {r : Fault} :
    withLocal x v f = .fault r ↔ (v = none ∧ r = .unwrittenLocal x) ∨ ∃ a, v = some a ∧ f a = .fault r := by
  cases v <;> simp [eq_comm]

end Chaining

/-! ### Interrupt events -/

@[simp] theorem State.latch_true (s : State) (e : Event) (f : State → State) : s.latch true e f = s.record e := rfl
@[simp] theorem State.latch_false (s : State) (e : Event) (f : State → State) : s.latch false e f = f s := rfl

/-- An event is lost exactly if its flag was pending. -/
theorem State.latch_cases (s : State) (pending : Bool) (e : Event) (f : State → State) :
    (pending = true ∧ s.latch pending e f = s.record e) ∨ (pending = false ∧ s.latch pending e f = f s) := by
  cases pending <;> simp

@[simp] theorem keptPending_true (pending : Bool) : keptPending pending true = pending := rfl
@[simp] theorem keptPending_false (pending : Bool) : keptPending pending false = false := rfl

/-! ### The parts of CLK, EDGE_SVC and BAUD -/

/-- A disarmed timer clock changes nothing (40_counter_timer.md R100). -/
theorem clkOp_disarmed (p : Params) {s : State} (h : s.armed = false) : clkOp p s = s := by simp [clkOp, h]

/-- Away from its last value the window time base counts (40_counter_timer.md R100). -/
theorem clkOp_counts (p : Params) {s : State} (ha : s.armed = true) (hw : s.winBase.toNat ≠ p.tickPeriod - 1) :
    clkOp p s = { s with capBase := s.capBase + 1, winBase := s.winBase + 1 } := by
  simp [clkOp, winBaseAtEnd, ha, hw]

/-- At its last value the window time base wraps and its tick is latched (40_counter_timer.md R100). -/
theorem clkOp_wraps (p : Params) {s : State} (ha : s.armed = true) (hw : s.winBase.toNat = p.tickPeriod - 1) :
    clkOp p s = latchTick { s with capBase := s.capBase + 1, winBase := 0 } := by
  simp [clkOp, winBaseAtEnd, ha, hw]

/-- The accumulator carries exactly when `LOW + 1` is the wrap value (40_counter_timer.md R104). -/
theorem edgeSvcOp_carry (p : Params) {s : State} (h : (s.low + 1).toNat = p.lowWrap) :
    edgeSvcOp p s = { s with edgePend := false, low := 0, high := s.high + 1 } :=
  if_pos (decide_eq_true h)

/-- Otherwise LOW counts (40_counter_timer.md R104). -/
theorem edgeSvcOp_count (p : Params) {s : State} (h : (s.low + 1).toNat ≠ p.lowWrap) :
    edgeSvcOp p s = { s with edgePend := false, low := s.low + 1 } :=
  if_neg (by simpa only [lowRollsOver, decide_eq_true_eq] using h)

/-- The start bit of a character (30_encoding.md R71). -/
@[simp] theorem charOf_start (d : Byte) : (charOf d)[0] = false := by revert d; decide

/-- The stop bit of a character (30_encoding.md R71). -/
@[simp] theorem charOf_stop (d : Byte) : (charOf d)[9] = true := by revert d; decide

/-- BAUD on an idle transmitter: the line idles (41_frame_transmitter.md R142). -/
theorem baud_idle {s : State} (hb : s.txBusy = false) (hf : s.txFull = false) :
    driveLine (startChar (endBit s)) = { s with txd := true, trace := s.trace ++ [.line true] } := by
  simp [driveLine, startChar, endBit, lineLevel, State.record, hb, hf]

/-- BAUD with a byte waiting and no bit left to send: the character starts (41_frame_transmitter.md R142). -/
theorem baud_start {s : State} (h : s.txBusy = false ∨ s.txIdx = 9) (hf : s.txFull = true) :
    driveLine (startChar (endBit s)) =
      { s with txShift := charOf s.txBuf, txFull := false, txBusy := true, txIdx := 0, txd := false,
               trace := s.trace ++ [.line false] } := by
  cases hb : s.txBusy
  · simp [driveLine, startChar, endBit, lineLevel, State.record, hb, hf]
  · have hi : s.txIdx = 9 := by simpa [hb] using h
    simp [driveLine, startChar, endBit, lineLevel, State.record, hb, hf, hi]

/-- BAUD inside a character: the next bit goes on the line (41_frame_transmitter.md R142). -/
theorem baud_next {s : State} (hb : s.txBusy = true) (hi : s.txIdx ≠ 9) :
    driveLine (startChar (endBit s)) =
      { s with txIdx := s.txIdx + 1, txd := s.txShift.getLsbD (s.txIdx + 1).toNat,
               trace := s.trace ++ [.line (s.txShift.getLsbD (s.txIdx + 1).toNat)] } := by
  have hi' : ¬ s.txIdx = 9#4 := hi
  simp [driveLine, startChar, endBit, lineLevel, State.record, hb, hi']

/-- BAUD at the end of a stop bit with no byte waiting: the transmitter goes idle (41_frame_transmitter.md R142). -/
theorem baud_end {s : State} (hb : s.txBusy = true) (hi : s.txIdx = 9) (hf : s.txFull = false) :
    driveLine (startChar (endBit s)) =
      { s with txBusy := false, txIdx := 0, txd := true, trace := s.trace ++ [.line true] } := by
  simp [driveLine, startChar, endBit, lineLevel, State.record, hb, hi, hf]

/-! ### The operations -/

/-- TICK_SVC steps exactly while its flag is pending (40_counter_timer.md R103). -/
theorem execTickSvc_eq_next {s t : State} :
    execTickSvc s = .next t ↔ s.tickPend = true ∧ t = { s with tickPend := false, wt := s.wt + 1 } := by
  unfold execTickSvc; split <;> rename_i h <;> simp [h, @eq_comm _ t]

/-- EDGE_SVC steps exactly while its flag is pending (40_counter_timer.md R104). -/
theorem execEdgeSvc_eq_next {s t : State} :
    execEdgeSvc s = .next t ↔ s.edgePend = true ∧ t = edgeSvcOp Config.params s := by
  unfold execEdgeSvc; split <;> rename_i h <;> simp [h, @eq_comm _ t]

/-- No operation faults the step function. -/
theorem exec_ne_fault (i : Instr) (s : State) (f : Fault) : exec i s ≠ .fault f := by
  cases i <;> simp [exec, execReset, execClk, execEdge, execBtn, execBaud, execTickSvc, execEdgeSvc, execArm,
    execDisarm, execClear, execRdWt, execRdLow, execRdHigh, execRdTxrdy, execTxWr, execLedOn, execLedOff] <;>
    split <;> simp

/-- An operation other than the two services always answers a next state. -/
theorem exec_answers {i : Instr} (ht : i ≠ .tickSvc) (he : i ≠ .edgeSvc) (s : State) : ∃ t, exec i s = .next t := by
  cases i <;> first | exact ⟨_, rfl⟩ | contradiction

/-- What BAUD can do, in five cases (41_frame_transmitter.md R142). -/
theorem execBaud_cases {s t : State} (h : execBaud s = .next t) :
    (s.txBusy = false ∧ s.txFull = false ∧ t = { s with txd := true, trace := s.trace ++ [.line true] }) ∨
    ((s.txBusy = false ∨ s.txIdx = 9) ∧ s.txFull = true ∧
      t = { s with txShift := charOf s.txBuf, txFull := false, txBusy := true, txIdx := 0, txd := false,
                   trace := s.trace ++ [.line false] }) ∨
    (s.txBusy = true ∧ s.txIdx ≠ 9 ∧
      t = { s with txIdx := s.txIdx + 1, txd := s.txShift.getLsbD (s.txIdx + 1).toNat,
                   trace := s.trace ++ [.line (s.txShift.getLsbD (s.txIdx + 1).toNat)] }) ∨
    (s.txBusy = true ∧ s.txIdx = 9 ∧ s.txFull = false ∧
      t = { s with txBusy := false, txIdx := 0, txd := true, trace := s.trace ++ [.line true] }) := by
  obtain rfl : driveLine (startChar (endBit s)) = t := by simpa [execBaud] using h
  rcases Bool.eq_false_or_eq_true s.txBusy with hb | hb <;> rcases Bool.eq_false_or_eq_true s.txFull with hf | hf
  · by_cases hi : s.txIdx = 9
    · exact .inr (.inl ⟨.inr hi, hf, baud_start (.inr hi) hf⟩)
    · exact .inr (.inr (.inl ⟨hb, hi, baud_next hb hi⟩))
  · by_cases hi : s.txIdx = 9
    · exact .inr (.inr (.inr ⟨hb, hi, hf, baud_end hb hi hf⟩))
    · exact .inr (.inr (.inl ⟨hb, hi, baud_next hb hi⟩))
  · exact .inr (.inl ⟨.inl hb, hf, baud_start (.inl hb) hf⟩)
  · exact .inl ⟨hb, hf, baud_idle hb hf⟩

/-- What CLK can do, in four cases (40_counter_timer.md R100). -/
theorem execClk_cases {s t : State} (h : execClk s = .next t) :
    (s.armed = false ∧ t = s) ∨
    (s.armed = true ∧ s.winBase.toNat ≠ 9999 ∧ t = { s with capBase := s.capBase + 1, winBase := s.winBase + 1 }) ∨
    (s.armed = true ∧ s.winBase.toNat = 9999 ∧ s.tickPend = false ∧
      t = { s with capBase := s.capBase + 1, winBase := 0, tickPend := true }) ∨
    (s.armed = true ∧ s.winBase.toNat = 9999 ∧ s.tickPend = true ∧
      t = { s with capBase := s.capBase + 1, winBase := 0, trace := s.trace ++ [.lostTick] }) := by
  obtain rfl : clkOp Config.params s = t := by simpa [execClk] using h
  rcases Bool.eq_false_or_eq_true s.armed with ha | ha
  · by_cases hw : s.winBase.toNat = 9999
    · have hw' : s.winBase.toNat = Config.params.tickPeriod - 1 := hw
      rw [clkOp_wraps _ ha hw']
      rcases Bool.eq_false_or_eq_true s.tickPend with ht | ht
      · exact .inr (.inr (.inr ⟨ha, hw, ht, by simp [latchTick, State.record, ht]⟩))
      · exact .inr (.inr (.inl ⟨ha, hw, ht, by simp [latchTick, ht]⟩))
    · exact .inr (.inl ⟨ha, hw, clkOp_counts _ ha hw⟩)
  · exact .inl ⟨ha, clkOp_disarmed _ ha⟩

/-- What EDGE can do, in three cases (40_counter_timer.md R101). -/
theorem execEdge_cases {s t : State} (h : execEdge s = .next t) :
    (s.armed = false ∧ t = s) ∨
    (s.armed = true ∧ s.edgePend = false ∧ t = { s with edgePend := true }) ∨
    (s.armed = true ∧ s.edgePend = true ∧ t = { s with trace := s.trace ++ [.lostEdge] }) := by
  obtain rfl := by simpa [execEdge] using h
  rcases Bool.eq_false_or_eq_true s.armed with ha | ha <;> rcases Bool.eq_false_or_eq_true s.edgePend with he | he <;>
    simp [ha, he, State.record]

/-- What EDGE_SVC can do, in two cases (40_counter_timer.md R104). -/
theorem execEdgeSvc_cases {s t : State} (h : execEdgeSvc s = .next t) :
    s.edgePend = true ∧
    (((s.low + 1).toNat = 250 ∧ t = { s with edgePend := false, low := 0, high := s.high + 1 }) ∨
     ((s.low + 1).toNat ≠ 250 ∧ t = { s with edgePend := false, low := s.low + 1 })) := by
  obtain ⟨hp, rfl⟩ := execEdgeSvc_eq_next.mp h
  refine ⟨hp, ?_⟩
  by_cases hl : (s.low + 1).toNat = 250
  · exact .inl ⟨hl, edgeSvcOp_carry _ hl⟩
  · exact .inr ⟨hl, edgeSvcOp_count _ hl⟩

/-- What BTN can do, in two cases (42_host_protocol.md R181). -/
theorem execBtn_cases {s t : State} (h : execBtn s = .next t) :
    (s.btnPend = false ∧ t = { s with btnPend := true }) ∨
    (s.btnPend = true ∧ t = { s with trace := s.trace ++ [.lostBtn] }) := by
  obtain rfl := by simpa [execBtn] using h
  rcases Bool.eq_false_or_eq_true s.btnPend with hb | hb <;> simp [hb, State.record]

/-- What TX_WR can do, in two cases (41_frame_transmitter.md R141). -/
theorem execTxWr_cases {b : Byte} {s t : State} (h : execTxWr b s = .next t) :
    (s.txFull = false ∧ t = { s with txBuf := b, txFull := true }) ∨
    (s.txFull = true ∧ t = s.raiseFault .txOverrun) := by
  obtain rfl := by simpa [execTxWr] using h
  rcases Bool.eq_false_or_eq_true s.txFull with hf | hf <;> simp [hf]

end Sys2Proof.Machine
end

