-- ==== Sys2Proof/Laws/PerInstr.lean ====
section
/-!
SUPPORT. The family `OpcodeRow`: an operation's word is selected by exactly one row of the operation map, the one with
its mnemonic and its issuers (30_encoding.md R75). One lemma per constructor.
-/

namespace Sys2Proof.Laws.OpcodeRow

/-- The rows that select the word of `i` are one row, with the mnemonic and the issuers of `i`. -/
def Statement (i : Instr) : Prop :=
  (opcodeMap.filter (fun r => r.selects (encode i))).map (fun r => (r.mnemonic, r.issuers)) =
    [(i.mnemonic, i.issuers)]

theorem reset : Statement .reset := by unfold Statement; decide
theorem clk : Statement .clk := by unfold Statement; decide
theorem edge : Statement .edge := by unfold Statement; decide
theorem btn : Statement .btn := by unfold Statement; decide
theorem baud : Statement .baud := by unfold Statement; decide
theorem tickSvc : Statement .tickSvc := by unfold Statement; decide
theorem edgeSvc : Statement .edgeSvc := by unfold Statement; decide
theorem arm : Statement .arm := by unfold Statement; decide
theorem disarm (kt ke : Bool) : Statement (.disarm kt ke) := by
  unfold Statement; revert kt ke; decide
theorem clear : Statement .clear := by unfold Statement; decide
theorem rdWt : Statement .rdWt := by unfold Statement; decide
theorem rdLow : Statement .rdLow := by unfold Statement; decide
theorem rdHigh : Statement .rdHigh := by unfold Statement; decide
theorem rdTxrdy : Statement .rdTxrdy := by unfold Statement; decide
theorem txWr (b : Byte) : Statement (.txWr b) := by
  have h : ∀ r ∈ opcodeMap, r.selects (encode (.txWr b)) = r.selects (encode (.txWr 0)) := by
    revert b; decide
  unfold Statement
  rw [List.filter_congr h]; simp only [Instr.mnemonic, Instr.issuers]; decide
theorem ledOn : Statement .ledOn := by unfold Statement; decide
theorem ledOff : Statement .ledOff := by unfold Statement; decide

end Sys2Proof.Laws.OpcodeRow
end

