-- ==== Sys2Proof/Laws/Step.lean ====
section
/-!
SUPPORT. What one step of the machine can do, said once: taking a turn, issuing a word, a step of SEND_FRAME, of MAIN
and of BCTX. Every invariant of the machine follows from these inversions and the cases of the operations.
-/

namespace Sys2Proof.Machine

/-! ### Taking a turn -/

theorem nextTurn_placed {s : State} {t : Turn} {rest : List Turn} (h : s.schedule = t :: rest) : nextTurn s = t := by
  simp [nextTurn, h]

theorem takeTurn_placed {s : State} {t : Turn} {rest : List Turn} (h : s.schedule = t :: rest) :
    takeTurn s = { s with schedule := rest } := by
  simp [takeTurn, h]

/-- A placed turn is the one that runs. -/
theorem step_placed {s : State} {t : Turn} {rest : List Turn} (h : s.schedule = t :: rest) :
    step s = runTurn t { s with schedule := rest } := by
  rw [step, nextTurn_placed h, takeTurn_placed h]

/-- With no turn placed a free choice runs. -/
theorem step_free {s : State} (h : s.schedule = []) :
    step s = runTurn (chooseTurn s) { s with draws := s.draws + 1 } := by
  simp [step, nextTurn, takeTurn, h]

/-- Taking a turn changes the model's own schedule and counter only. -/
theorem takeTurn_eq (s : State) : ∃ sch n, takeTurn s = { s with schedule := sch, draws := n } := by
  unfold takeTurn; split
  · exact ⟨_, s.draws, rfl⟩
  · exact ⟨s.schedule, _, rfl⟩

/-! ### Issuing a word -/

/-- What issuing a word can do: it is refused in the block's sense, or the operation it names runs, or the issuing
context does not run. -/
theorem issueWord_cases (a : Agent) (w : Word) (s : State) :
    ((∀ i, decode w = .ok i → wellIssued a i = false) ∧ issueWord a w s = .next s.markRefused) ∨
    (∃ i, decode w = .ok i ∧ wellIssued a i = true ∧ agentRuns a s = true ∧ issueWord a w s = exec i s) ∨
    (agentRuns a s = false ∧ issueWord a w s = .refused (.notEnabled a)) := by
  unfold issueWord
  cases hd : decode w with
  | error e => simp
  | ok i => cases hw : wellIssued a i <;> cases hr : agentRuns a s <;> simp [hw]

/-- What one turn can do when it answers a next state. -/
theorem runTurn_cases {t : Turn} {s u : State} (h : runTurn t s = .next u) :
    (∃ a w, t = .issue a w ∧ (∀ i, decode w = .ok i → wellIssued a i = false) ∧ u = s.markRefused) ∨
    (∃ a w i, t = .issue a w ∧ decode w = .ok i ∧ wellIssued a i = true ∧ agentRuns a s = true ∧ exec i s = .next u) ∨
    (∃ offer kt ke, t = .main offer kt ke ∧ s.bctx.active = false ∧
      mainStep Config.params offer kt ke s = .next u) ∨
    (t = .bctx ∧ s.bctx.active = true ∧ bctxProgram s = .next u) ∨
    (t = .bctx ∧ s.bctx.active = false ∧ s.btnPend = true ∧ u = s.enterButton) := by
  cases t with
  | issue a w =>
    simp only [runTurn] at h
    rcases issueWord_cases a w s with ⟨hn, hr⟩ | ⟨i, hd, hw, hr, he⟩ | ⟨_, hr⟩
    · exact .inl ⟨a, w, rfl, hn, by simpa [h, eq_comm] using hr⟩
    · exact .inr (.inl ⟨a, w, i, rfl, hd, hw, hr, he ▸ h⟩)
    · simp [hr] at h
  | main offer kt ke =>
    cases ha : s.bctx.active with
    | true => simp [runTurn, agentRuns, ha] at h
    | false => exact .inr (.inr (.inl ⟨offer, kt, ke, rfl, rfl, by simpa [runTurn, agentRuns, ha] using h⟩))
  | bctx =>
    cases ha : s.bctx.active with
    | true => exact .inr (.inr (.inr (.inl ⟨rfl, rfl, by simpa [runTurn, bctxStep, ha] using h⟩)))
    | false =>
      cases hb : s.btnPend with
      | true =>
        exact .inr (.inr (.inr (.inr ⟨rfl, rfl, rfl, by simpa [runTurn, bctxStep, ha, hb, eq_comm] using h⟩)))
      | false => simp [runTurn, bctxStep, ha, hb] at h

/-- An operation leaves both host contexts as they are, RESET apart. -/
theorem exec_contexts {i : Instr} {s t : State} (h : exec i s = .next t) :
    (t.main = s.main ∧ t.bctx = s.bctx) ∨
    (i = .reset ∧ t.main.pc = .gSample ∧ t.bctx = { s.bctx with active := false }) := by
  cases i <;> simp only [exec] at h
  case clk => rcases execClk_cases h with ⟨_, rfl⟩ | ⟨_, _, rfl⟩ | ⟨_, _, _, rfl⟩ | ⟨_, _, _, rfl⟩ <;> simp
  case edge => rcases execEdge_cases h with ⟨_, rfl⟩ | ⟨_, _, rfl⟩ | ⟨_, _, rfl⟩ <;> simp
  case btn => rcases execBtn_cases h with ⟨_, rfl⟩ | ⟨_, rfl⟩ <;> simp
  case baud => rcases execBaud_cases h with ⟨_, _, rfl⟩ | ⟨_, _, rfl⟩ | ⟨_, _, rfl⟩ | ⟨_, _, _, rfl⟩ <;> simp
  case tickSvc => obtain ⟨_, rfl⟩ := execTickSvc_eq_next.mp h; simp
  case edgeSvc => rcases execEdgeSvc_cases h with ⟨_, ⟨_, rfl⟩ | ⟨_, rfl⟩⟩ <;> simp
  case txWr => rcases execTxWr_cases h with ⟨_, rfl⟩ | ⟨_, rfl⟩ <;> simp
  all_goals (cases h; simp [setLed])

/-! ### The control programs -/

/-- A step of SEND_FRAME leaves the block as it was or runs one operation on it, TX_WR of one of its two values at its
write steps and otherwise RD_TXRDY, LED_ON or LED_OFF. -/
theorem sendStep_block {nA nB nR : HostLocal} {a b : Option Word} {k : SendPc} {r : Option Bool} {s : State}
    {x : SendResult} (h : sendStep nA nB nR a b k r s = .next x) :
    ((k = .test1 ∨ k = .test2) ∧ x.state = s) ∨
    ((k = .poll1 ∨ k = .poll2) ∧ exec .rdTxrdy s = .next x.state) ∨
    (k = .ledOn ∧ exec .ledOn s = .next x.state) ∨
    (k = .ledOff ∧ exec .ledOff s = .next x.state) ∨
    (∃ v, ((k = .write1 ∧ a = some v) ∨ (k = .write2 ∧ b = some v)) ∧ exec (.txWr (trunc8 v)) s = .next x.state) := by
  cases k <;> simp only [sendStep, sendIssue, sendPoll, sendTest, sendWrite, andThen_eq_next, withLocal_eq_next] at h
  case ledOn => obtain ⟨s', he, hx⟩ := h; cases hx; simp [he]
  case poll1 => obtain ⟨s', he, hx⟩ := h; cases hx; simp [he]
  case test1 => obtain ⟨v, he, hx⟩ := h; cases hx; simp
  case write1 => obtain ⟨v, rfl, s', he, hx⟩ := h; cases hx; simp [he]
  case poll2 => obtain ⟨s', he, hx⟩ := h; cases hx; simp [he]
  case test2 => obtain ⟨v, he, hx⟩ := h; cases hx; simp
  case write2 => obtain ⟨v, rfl, s', he, hx⟩ := h; cases hx; simp [he]
  case ledOff => obtain ⟨s', he, hx⟩ := h; cases hx; simp [he]

/-- A step of SEND_FRAME leaves the host contexts to its caller. -/
theorem sendStep_contexts {nA nB nR : HostLocal} {a b : Option Word} {k : SendPc} {r : Option Bool} {s : State}
    {x : SendResult} (h : sendStep nA nB nR a b k r s = .next x) :
    x.state.main = s.main ∧ x.state.bctx = s.bctx := by
  rcases sendStep_block h with ⟨_, hx⟩ | ⟨_, hx⟩ | ⟨_, hx⟩ | ⟨_, hx⟩ | ⟨v, _, hx⟩
  · exact ⟨by rw [hx], by rw [hx]⟩
  all_goals exact (exec_contexts hx).elim id fun h => nomatch h.1

/-- A step of SEND_FRAME goes on along its expansion and ends after LED_OFF. -/
theorem sendStep_successors {nA nB nR : HostLocal} {a b : Option Word} {k : SendPc} {r : Option Bool} {s : State}
    {x : SendResult} (h : sendStep nA nB nR a b k r s = .next x) :
    (k = .ledOff ∧ x.next = none) ∨ (k ≠ .ledOff ∧ ∃ k', x.next = some k' ∧ k' ∈ k.successors) := by
  cases k <;> simp only [sendStep, sendIssue, sendPoll, sendTest, sendWrite, andThen_eq_next, withLocal_eq_next] at h
  case test1 => obtain ⟨v, _, hx⟩ := h; cases hx; cases v <;> simp [SendPc.successors]
  case test2 => obtain ⟨v, _, hx⟩ := h; cases hx; cases v <;> simp [SendPc.successors]
  case write1 => obtain ⟨v, _, s', _, hx⟩ := h; cases hx; simp [SendPc.successors]
  case write2 => obtain ⟨v, _, s', _, hx⟩ := h; cases hx; simp [SendPc.successors]
  all_goals obtain ⟨s', _, hx⟩ := h; cases hx; simp [SendPc.successors]

/-- A step of MAIN leaves the block as it was or runs one host operation on it, and then writes MAIN's own state only. -/
theorem mainStep_block {p : Params} {offer : Option AdcResult} {kt ke : Bool} {s t : State}
    (h : mainStep p offer kt ke s = .next t) :
    ∃ u m, (u = s ∨ ∃ i, wellIssued .main i = true ∧ exec i s = .next u) ∧ t = { u with main := m } := by
  unfold mainStep at h
  split at h
  · cases offer <;> simp [mainSample] at h; exact ⟨s, _, .inl rfl, h.symm⟩
  · simp only [mainGate, withLocal_eq_next] at h; obtain ⟨v, _, h⟩ := h; cases h; exact ⟨s, _, .inl rfl, rfl⟩
  · cases h; exact ⟨s, _, .inl rfl, rfl⟩
  · simp only [mainIssue, andThen_eq_next] at h; obtain ⟨u, he, h⟩ := h; cases h
    exact ⟨u, _, .inr ⟨_, rfl, he⟩, rfl⟩
  · simp only [mainReadWt, andThen_eq_next] at h; obtain ⟨u, he, h⟩ := h; cases h
    exact ⟨u, _, .inr ⟨_, rfl, he⟩, rfl⟩
  · simp only [mainWaitTest, withLocal_eq_next] at h; obtain ⟨v, _, h⟩ := h; cases h; exact ⟨s, _, .inl rfl, rfl⟩
  · simp only [mainIssue, andThen_eq_next] at h; obtain ⟨u, he, h⟩ := h; cases h
    exact ⟨u, _, .inr ⟨_, rfl, he⟩, rfl⟩
  · simp only [mainReadLow, andThen_eq_next] at h; obtain ⟨u, he, h⟩ := h; cases h
    exact ⟨u, _, .inr ⟨_, rfl, he⟩, rfl⟩
  · simp only [mainReadHigh, andThen_eq_next] at h; obtain ⟨u, he, h⟩ := h; cases h
    exact ⟨u, _, .inr ⟨_, rfl, he⟩, rfl⟩
  · simp only [mainTest, withLocal_eq_next] at h; obtain ⟨v, _, w, _, h⟩ := h; cases h; exact ⟨s, _, .inl rfl, rfl⟩
  · simp only [mainSend, andThen_eq_next] at h; obtain ⟨x, he, h⟩ := h; cases h
    rcases sendStep_block he with ⟨_, hx⟩ | ⟨_, hx⟩ | ⟨_, hx⟩ | ⟨_, hx⟩ | ⟨v, _, hx⟩
    · exact ⟨x.state, _, .inl hx, rfl⟩
    all_goals exact ⟨x.state, _, .inr ⟨_, rfl, hx⟩, rfl⟩
  · simp only [mainIssue, andThen_eq_next] at h; obtain ⟨u, he, h⟩ := h; cases h
    exact ⟨u, _, .inr ⟨_, rfl, he⟩, rfl⟩
  · cases h; exact ⟨s, _, .inl rfl, rfl⟩

/-- A step of BCTX's program leaves the block as it was or runs one of RD_TXRDY, TX_WR 0, LED_ON, LED_OFF on it, and
then writes BCTX's own state only. -/
theorem bctxProgram_block {s t : State} (h : bctxProgram s = .next t) :
    ∃ u b, (u = s ∨ exec .rdTxrdy s = .next u ∨ exec (.txWr 0) s = .next u ∨ exec .ledOn s = .next u ∨
      exec .ledOff s = .next u) ∧ t = { u with bctx := b } := by
  unfold bctxProgram at h
  split at h
  · simp only [bctxSend, andThen_eq_next] at h; obtain ⟨x, he, h⟩ := h; cases h
    rcases sendStep_block he with ⟨_, hx⟩ | ⟨_, hx⟩ | ⟨_, hx⟩ | ⟨_, hx⟩ | ⟨v, hv, hx⟩
    · exact ⟨x.state, _, .inl hx, rfl⟩
    · exact ⟨x.state, _, .inr (.inl hx), rfl⟩
    · exact ⟨x.state, _, .inr (.inr (.inr (.inl hx))), rfl⟩
    · exact ⟨x.state, _, .inr (.inr (.inr (.inr hx))), rfl⟩
    · have hv0 : v = 0 := by rcases hv with ⟨_, hv⟩ | ⟨_, hv⟩ <;> (cases hv; rfl)
      subst hv0
      exact ⟨x.state, _, .inr (.inr (.inl hx)), rfl⟩
  · cases h; exact ⟨s, _, .inl rfl, rfl⟩

/-- What one step can do to the block: nothing, REFUSED, one operation, or taking the button interrupt. The contexts'
own state aside, every invariant of the block follows from this and the cases of the operations. -/
theorem step_block {s t : State} (h : step s = .next t) :
    ∃ u m b, (u = takeTurn s ∨ u = (takeTurn s).markRefused ∨ u = (takeTurn s).enterButton ∨
      ∃ i, exec i (takeTurn s) = .next u) ∧ t = { u with main := m, bctx := b } := by
  rcases runTurn_cases h with ⟨a, w, _, _, ht⟩ | ⟨a, w, i, _, _, _, _, he⟩ | ⟨o, kt, ke, _, _, hm⟩ | ⟨_, _, hb⟩ |
    ⟨_, _, _, ht⟩
  · exact ⟨t, _, _, .inr (.inl ht), rfl⟩
  · exact ⟨t, _, _, .inr (.inr (.inr ⟨i, he⟩)), rfl⟩
  · obtain ⟨u, m, hu, rfl⟩ := mainStep_block hm
    rcases hu with rfl | ⟨i, _, he⟩
    · exact ⟨_, _, _, .inl rfl, rfl⟩
    · exact ⟨u, _, _, .inr (.inr (.inr ⟨i, he⟩)), rfl⟩
  · obtain ⟨u, b, hu, rfl⟩ := bctxProgram_block hb
    rcases hu with rfl | he | he | he | he
    · exact ⟨_, _, _, .inl rfl, rfl⟩
    all_goals exact ⟨u, _, _, .inr (.inr (.inr ⟨_, he⟩)), rfl⟩
  · exact ⟨t, _, _, .inr (.inr (.inl ht)), rfl⟩

/-- MAIN is enabled exactly when BCTX is inactive and, at G_SAMPLE, the oracle offers a result. -/
theorem mainEnabled_iff (s : State) :
    s.mainEnabled ↔ s.bctx.active = false ∧ mainWaitsForAdc (Config.freeOffer s.draws) s = false := by
  cases ha : s.bctx.active <;> cases hw : mainWaitsForAdc (Config.freeOffer s.draws) s <;>
    cases ht : s.tickPend <;> cases he : s.edgePend <;> cases hb : s.btnPend <;>
    simp [State.mainEnabled, freeTurns, enabledTurns, envTurns, svcTurns, bctxTurns, mainTurns, Turn.isMain, *]

end Sys2Proof.Machine
end

