-- ==== Sys2Proof/Tests/Slice0.lean ====
section
/-!
SUPPORT. Tests on fixed values, taken from spec/95_test_vectors.md and the examples of the rules, the smoke test of
WellFormed, and for every statement with hypotheses a concrete state that meets them.
-/

namespace Sys2Proof.Tests

open Sys2Proof.Machine

/-! ### Helpers -/

/-- The next state of an outcome. -/
def after (o : Host.Outcome State Fault Refusal) : Option State :=
  match o with
  | .next t => some t
  | .fault _ => none
  | .refused _ => none

/-- An armed block with the given window time base and tick flag. -/
def armedAt (winBase : Word) (tickPend : Bool) : State :=
  { State.reset with armed := true, winBase := winBase, tickPend := tickPend }

/-- A pending edge with the given counts. -/
def edgeAt (low high : Word) : State := { State.reset with edgePend := true, low := low, high := high }

/-- A transmitter with the given buffer and shifter. -/
def txAt (buf : Byte) (full busy : Bool) (shift : BitVec 10) (idx : BitVec 4) : State :=
  { State.reset with txBuf := buf, txFull := full, txBusy := busy, txShift := shift, txIdx := idx }

/-- MAIN at `pc` with every local written. -/
def mainAt (pc : MainPc) (v : AdcResult) (l h t : Word) (r : Bool) : State :=
  { State.reset with main := { pc := pc, v := some v, l := some l, h := some h, t := some t, r := some r } }

/-- BCTX active at `pc`. -/
def bctxAt (pc : BctxPc) (r : Bool) : State := { State.reset with bctx := { active := true, pc := pc, r := some r } }

/-- An armed block whose transmitter, LED, counter and faults are as a reset finds them while a frame is sent. -/
def busyWithFault : State :=
  { txAt 9 true true 5 4 with faults := [.txOverrun], armed := true, wt := 17, led := true }

/-- MAIN before its DISARM, both flags pending. -/
def disarmPending : State :=
  { mainAt .gDisarm 203 0 0 25 false with armed := true, tickPend := true, edgePend := true }

/-- MAIN's turn without an ADC offer. -/
def mainTurn : Turn := .main none false false

/-- `s` with one placed turn. -/
def placed (t : Turn) (s : State) : State := { s with schedule := [t] }

/-! ### WellFormed: each check refuses an ill-formed term (30_encoding.md R78, R90, 10_state.md R27) -/

theorem test_main_may_not_issue_clk : wellIssued .main .clk = false := by decide
theorem test_env_may_not_issue_tx_wr : wellIssued .env (.txWr 0) = false := by decide
theorem test_svc_may_not_issue_arm : wellIssued .svc .arm = false := by decide
theorem test_bctx_may_not_issue_tick_svc : wellIssued .bctx .tickSvc = false := by decide
theorem test_bctx_may_issue_tx_wr : wellIssued .bctx (.txWr 0) = true := by decide
theorem test_tick_period_zero_is_illegal : Params.wf { tickPeriod := 0 } = false := by decide
theorem test_tick_period_too_long_is_illegal : Params.wf { tickPeriod := 65537 } = false := by decide
theorem test_default_params_are_legal : Config.params.wf = true := by decide
theorem test_asm_byte_out_of_range : assemble "TX_WR" [256] = none := by decide
theorem test_asm_draw_out_of_range : assemble "DISARM" [2, 0] = none := by decide
theorem test_asm_disarm_order : assemble "DISARM" [1, 0] = some (.disarm true false) := by decide
theorem test_asm_tx_wr : assemble "TX_WR" [0x41] = some (.txWr 0x41) := by decide
theorem test_asm_edge_svc : assemble "EDGE_SVC" [] = some .edgeSvc := by decide

/-! ### Decoding: words written out bit by bit from 30_encoding.md R74, op then the format's fields -/

theorem test_decode_reset : decode 0b00001_000_00000000 = .ok .reset := by decide
theorem test_decode_clk : decode 0b00010_000_00000000 = .ok .clk := by decide
theorem test_decode_edge : decode 0b00011_000_00000000 = .ok .edge := by decide
theorem test_decode_btn : decode 0b00100_000_00000000 = .ok .btn := by decide
theorem test_decode_baud : decode 0b00101_000_00000000 = .ok .baud := by decide
theorem test_decode_tick_svc : decode 0b00110_000_00000000 = .ok .tickSvc := by decide
theorem test_decode_edge_svc : decode 0b00111_000_00000000 = .ok .edgeSvc := by decide
theorem test_decode_arm : decode 0b01000_000_00000000 = .ok .arm := by decide
theorem test_decode_disarm : decode 0b01001_000_000000_1_0 = .ok (.disarm true false) := by decide
theorem test_decode_clear : decode 0b01010_000_00000000 = .ok .clear := by decide
theorem test_decode_rd_wt : decode 0b01011_000_00000000 = .ok .rdWt := by decide
theorem test_decode_rd_low : decode 0b01100_000_00000000 = .ok .rdLow := by decide
theorem test_decode_rd_high : decode 0b01101_000_00000000 = .ok .rdHigh := by decide
theorem test_decode_rd_txrdy : decode 0b01110_000_00000000 = .ok .rdTxrdy := by decide
theorem test_decode_tx_wr : decode 0b01111_000_11101000 = .ok (.txWr 0xE8) := by decide
theorem test_decode_led_on : decode 0b10000_000_00000000 = .ok .ledOn := by decide
theorem test_decode_led_off : decode 0b10001_000_00000000 = .ok .ledOff := by decide
theorem test_decode_stray_bit_z : decode 0x0801 = .error .strayBits := by decide
theorem test_decode_stray_bit_d : decode 0x4804 = .error .strayBits := by decide
theorem test_decode_stray_bit_b : decode 0x7900 = .error .strayBits := by decide
theorem test_decode_all_zero : decode 0x0000 = .error .opZero := by decide
theorem test_decode_op_0x1F : decode 0xF800 = .error .opUnassigned := by decide
theorem test_decode_table_word : decodeTableWord 16 0x7804 = some (.txWr 0x04) := by decide

/-! ### CLK (95_test_vectors.md 2.2); the states also witness ClkAdvancesArmedTimers -/

theorem test_clk_counts_to_9999 :
    exec .clk { armedAt 9998 false with capBase := 100 } = .next { armedAt 9999 false with capBase := 101 } := by rfl
theorem test_clk_wraps_and_sets_tick :
    exec .clk { armedAt 9999 false with capBase := 0xFFFF } = .next { armedAt 0 true with capBase := 0 } := by rfl
theorem witness_clk_loses_tick : exec .clk { armedAt 9999 true with capBase := 5 } =
    .next { armedAt 0 true with capBase := 6, trace := [.lostTick] } := by rfl
theorem witness_clk_disarmed : exec .clk State.reset = .next State.reset := by rfl
theorem witness_clk_tick_period_one : (clkOp { tickPeriod := 1 } (armedAt 0 true)).trace = [.lostTick] := by decide

/-! ### EDGE, EDGE_SVC, TICK_SVC (95_test_vectors.md 2.3, 2.5) -/

theorem test_edge_sets_pending : exec .edge (armedAt 0 false) = .next { armedAt 0 false with edgePend := true } := by rfl
theorem test_edge_lost : exec .edge { edgeAt 0 0 with armed := true } =
    .next { edgeAt 0 0 with armed := true, trace := [.lostEdge] } := by rfl
theorem witness_edge_disarmed : exec .edge State.reset = .next State.reset := by rfl
theorem test_edge_svc_carries : exec .edgeSvc (edgeAt 249 3) = .next { edgeAt 0 4 with edgePend := false } := by rfl
theorem test_edge_svc_high_wraps :
    exec .edgeSvc (edgeAt 249 0xFFFF) = .next { edgeAt 0 0 with edgePend := false } := by rfl
theorem witness_edge_svc_counts : exec .edgeSvc (edgeAt 248 0) = .next { edgeAt 249 0 with edgePend := false } := by rfl
theorem witness_edge_svc_not_enabled : exec .edgeSvc State.reset = .refused (.notEnabled .svc) := by rfl
theorem witness_edge_svc_low_wrap_251 : (edgeSvcOp { lowWrap := 251 } (edgeAt 249 0)).low = 250 ∧
    (edgeSvcOp { lowWrap := 251 } (edgeAt 250 0)).high = 1 := by decide
theorem test_tick_svc_reaches_25 :
    exec .tickSvc { armedAt 0 true with wt := 24 } = .next { armedAt 0 false with wt := 25 } := by rfl
theorem test_tick_svc_wraps :
    exec .tickSvc { armedAt 0 true with wt := 0xFFFF } = .next { armedAt 0 false with wt := 0 } := by rfl
theorem witness_tick_svc_not_enabled : exec .tickSvc State.reset = .refused (.notEnabled .svc) := by rfl

/-! ### ARM, DISARM, CLEAR (95_test_vectors.md 2.6) -/

theorem test_arm : exec .arm State.reset = .next { State.reset with armed := true } := by rfl
theorem witness_arm_armed : exec .arm (armedAt 3 false) = .next (armedAt 3 false) := by rfl
theorem test_disarm_keeps_tick_only : exec (.disarm true false) { armedAt 7 true with edgePend := true } =
    .next { armedAt 7 true with armed := false } := by rfl
theorem test_disarm_keeps_edge_only : exec (.disarm false true) { armedAt 7 true with edgePend := true } =
    .next { armedAt 7 false with armed := false, edgePend := true } := by rfl
theorem test_clear_leaves_flags : exec .clear { edgeAt 7 4 with wt := 25, winBase := 3, capBase := 9 } =
    .next (edgeAt 0 0) := by rfl

/-! ### Reads (95_test_vectors.md 2.7) -/

theorem test_rd_wt : (after (exec .rdWt { State.reset with wt := 25 })).map State.trace =
    some [.read (.wt 25)] := by decide
theorem test_rd_low : (after (exec .rdLow (edgeAt 249 4))).map State.returned = some (some (.low 249)) := by decide
theorem test_rd_high : (after (exec .rdHigh (edgeAt 0 256))).map State.returned = some (some (.high 256)) := by decide
theorem test_rd_txrdy_full : (after (exec .rdTxrdy (txAt 0 true false 0 0))).map State.returned =
    some (some (.txrdy false)) := by decide
theorem test_rd_txrdy_shifting : (after (exec .rdTxrdy (txAt 0 false true 0 0))).map State.returned =
    some (some (.txrdy true)) := by decide

/-! ### TX_WR, BAUD, LED (95_test_vectors.md 2.8, 2.9) -/

theorem test_tx_wr_while_busy : exec (.txWr 0x41) (txAt 0 false true 0x282 3) = .next (txAt 0x41 true true 0x282 3) := by
  rfl
theorem test_tx_wr_overrun : exec (.txWr 0x41) (txAt 0x07 true false 0x3FF 0) =
    .next { txAt 0x07 true false 0x3FF 0 with faults := [.txOverrun], trace := [.fault .txOverrun] } := by rfl
theorem test_baud_loads_0x41 : exec .baud (txAt 0x41 true false 0x3FF 0) =
    .next { txAt 0x41 false true 0x282 0 with txd := false, trace := [.line false] } := by rfl
theorem test_baud_back_to_back : exec .baud (txAt 0x04 true true 0x282 9) =
    .next { txAt 0x04 false true 0x208 0 with txd := false, trace := [.line false] } := by rfl
theorem witness_baud_idle : exec .baud State.reset = .next { State.reset with trace := [.line true] } := by rfl
theorem witness_baud_next_bit : exec .baud (txAt 0 false true 0x282 0) =
    .next { txAt 0 false true 0x282 1 with trace := [.line true] } := by rfl
theorem witness_baud_ends : exec .baud (txAt 0 false true 0x282 9) =
    .next { txAt 0 false false 0x282 0 with trace := [.line true] } := by rfl
theorem test_led_on : exec .ledOn { State.reset with led := true } =
    .next { State.reset with led := true, trace := [.led true] } := by rfl
theorem test_led_off : exec .ledOff { State.reset with led := true } =
    .next { State.reset with trace := [.led false] } := by rfl
theorem test_char_levels_0xE8 :
    charLevels 0xE8 = [false, false, false, false, true, false, true, true, true, true] := by decide

/-! ### BTN and RESET (95_test_vectors.md 2.10, 2.11) -/

theorem test_btn : exec .btn State.reset = .next { State.reset with btnPend := true } := by rfl
theorem test_btn_lost : exec .btn { State.reset with btnPend := true } =
    .next { State.reset with btnPend := true, trace := [.lostBtn] } := by rfl
theorem test_reset_keeps_fault : exec .reset busyWithFault = .next { State.reset with faults := [.txOverrun] } := by rfl

/-! ### The step: witnesses of StepRunsNextTurn, StepRunsDecodedOperation, ReservedWordsAreRefused,
WrongIssuerIsRefused, and of the whole-machine rules -/

theorem witness_step_runs_placed_word : (placed (.issue .main 0x4000) State.reset).schedule = [.issue .main 0x4000] ∧
    decode 0x4000 = .ok .arm ∧ wellIssued .main .arm = true ∧
    step (placed (.issue .main 0x4000) State.reset) = .next { State.reset with armed := true } := by
  refine ⟨rfl, by decide, by decide, rfl⟩
theorem witness_step_runs_bctx_word : step (placed (.issue .bctx 0x8000) (bctxAt .bRet true)) =
    .next { bctxAt .bRet true with led := true, trace := [.led true] } := by rfl
theorem witness_free_choice : State.reset.schedule = [] ∧ State.reset.LocalsReady := by
  exact ⟨rfl, rfl, rfl⟩
theorem witness_reserved_zero : runTurn (.issue .env 0x0000) State.reset = .next { State.reset with refused := true } := by
  rfl
theorem witness_reserved_high : 0x12 ≤ ((0x9000 : Word).extractLsb' 11 5).toNat ∧
    runTurn (.issue .svc 0x9000) State.reset = .next { State.reset with refused := true } := ⟨by decide, rfl⟩
theorem witness_reserved_z : runTurn (.issue .env 0x0801) State.reset = .next { State.reset with refused := true } := by
  rfl
theorem witness_reserved_d : runTurn (.issue .main 0x4804) State.reset = .next { State.reset with refused := true } := by
  rfl
theorem witness_reserved_b : runTurn (.issue .main 0x7900) State.reset = .next { State.reset with refused := true } := by
  rfl
theorem witness_wrong_issuer_env_op : runTurn (.issue .main 0x1000) State.reset =
    .next { State.reset with refused := true } := by rfl
theorem witness_wrong_issuer_svc_op : runTurn (.issue .env 0x3000) State.reset =
    .next { State.reset with refused := true } := by rfl
theorem witness_wrong_issuer_host_op : runTurn (.issue .env 0x7800) State.reset =
    .next { State.reset with refused := true } := by rfl
theorem witness_main_word_has_no_step : (placed (.issue .main 0x4000) (bctxAt .bRet true)).bctx.active = true ∧
    wellIssued .main .arm = true ∧ step (placed (.issue .main 0x4000) (bctxAt .bRet true)) = .refused (.notEnabled .main) :=
  ⟨rfl, by decide, rfl⟩
theorem witness_bctx_word_has_no_step : State.reset.bctx.active = false ∧ wellIssued .bctx .ledOn = true ∧
    step (placed (.issue .bctx 0x8000) State.reset) = .refused (.notEnabled .bctx) := ⟨rfl, by decide, rfl⟩
theorem witness_main_blocked : (bctxAt .bRet true).bctx.active = true ∧
    nextTurn (placed (.issue .env 0x1000) (bctxAt .bRet true)) ≠ .issue .env 0x0800 ∧
    step (placed (.issue .env 0x1000) (bctxAt .bRet true)) = .next (bctxAt .bRet true) := ⟨rfl, by decide, rfl⟩
theorem witness_bctx_turn : nextTurn (placed .bctx (bctxAt .bRet true)) = .bctx ∧
    step (placed .bctx (bctxAt .bRet true)) =
      .next { State.reset with bctx := { active := false, pc := .bRet, r := some true } } := ⟨rfl, rfl⟩
theorem witness_wt_changes : step (placed (.issue .svc 0x3000) (armedAt 0 true)) =
    .next { armedAt 0 false with wt := 1 } := by rfl
theorem witness_wt_cleared : step (placed mainTurn { mainAt .gClear 0 0 0 25 false with wt := 25 }) =
    .next (mainAt .gLoop 0 0 0 25 false) := by rfl
theorem witness_refused_step : step (placed (.issue .main 0x1000) State.reset) =
    .next { State.reset with refused := true } := by rfl
theorem witness_tick_flag_set : step (placed (.issue .env 0x1000) (armedAt 9999 false)) =
    .next { armedAt 0 true with capBase := 1 } := by rfl
theorem witness_edge_flag_set : step (placed (.issue .env 0x1800) (armedAt 0 false)) =
    .next { armedAt 0 false with edgePend := true } := by rfl
theorem witness_button_flag_set : step (placed (.issue .env 0x2000) State.reset) =
    .next { State.reset with btnPend := true } := by rfl
theorem witness_place_tick_svc : step (State.reset.withFetchWord 16 0x3000) = .next { State.reset with wt := 1 } := by rfl
theorem witness_opcode_row : ⟨"TX_WR", 0x7800, 0xFF00, [.main, .bctx]⟩ ∈ opcodeMap ∧
    (0x78FF : Word) &&& 0xFF00 = 0x7800 ∧ ∀ r ∈ opcodeMap, (0x7900 : Word) &&& r.mask ≠ r.pattern := by decide
theorem witness_only_listed : exec .ledOn State.reset = .next (setLed true State.reset) ∧
    Instr.ledOn.mnemonic ∉ ["TICK_SVC", "CLEAR", "RESET"] := ⟨rfl, by decide⟩

/-! ### The control programs (95_test_vectors.md 2.10): witnesses of the statements about MAIN and BCTX -/

theorem witness_adc_sample : runTurn (.main (some 512) false false) State.reset =
    .next { State.reset with main := { State.reset.main with v := some 512, pc := .gGate } } := by rfl
theorem witness_adc_silent : runTurn mainTurn State.reset = .refused (.notEnabled .main) := by rfl
theorem witness_gate_203 : (after (runTurn mainTurn (mainAt .gGate 203 0 0 0 false))).map (·.main.pc) =
    some .gSettle := by decide
theorem witness_gate_202 : (after (runTurn mainTurn (mainAt .gGate 202 0 0 0 false))).map (·.main.pc) =
    some .gSample := by decide
theorem witness_settle : runTurn mainTurn (mainAt .gSettle 203 0 0 0 false) = .next (mainAt .gArm 203 0 0 0 false) := by
  rfl
theorem witness_g_arm : runTurn mainTurn (mainAt .gArm 203 0 0 0 false) =
    .next { mainAt .gWait 203 0 0 0 false with armed := true } := by rfl
theorem witness_g_disarm : runTurn (.main none true false) disarmPending =
    .next { mainAt .gReadLow 203 0 0 25 false with tickPend := true } := by rfl
theorem witness_g_loop : runTurn mainTurn (mainAt .gLoop 203 0 0 25 false) = .next (mainAt .gSample 203 0 0 25 false) := by
  rfl
theorem witness_wait_reads : (after (runTurn mainTurn { mainAt .gWait 203 0 0 0 false with wt := 24 })).map (·.main.t) =
    some (some 24) := by decide
theorem witness_wait_25 : (after (runTurn mainTurn (mainAt .gWaitTest 203 0 0 25 false))).map (·.main.pc) =
    some .gDisarm := by decide
theorem witness_wait_26 : (after (runTurn mainTurn (mainAt .gWaitTest 203 0 0 26 false))).map (·.main.pc) =
    some .gWait := by decide
theorem witness_read_low : (after (runTurn mainTurn { mainAt .gReadLow 203 0 0 25 false with low := 7 })).map (·.main.l) =
    some (some 7) := by decide
theorem witness_read_high : (after (runTurn mainTurn { mainAt .gReadHigh 203 0 0 25 false with high := 256 })).map
    (·.main.h) = some (some 256) := by decide
theorem witness_test_zero : (after (runTurn mainTurn (mainAt .gTest 203 0 0 25 false))).map (·.main.pc) =
    some .gClear := by decide
theorem witness_test_high_256 : (after (runTurn mainTurn (mainAt .gTest 203 0 256 25 false))).map (·.main.pc) =
    some (.gSend .ledOn) := by decide
theorem witness_send_low_byte : runTurn mainTurn (mainAt (.gSend .write1) 203 1000 4 25 true) =
    .next { mainAt (.gSend .poll2) 203 1000 4 25 true with txBuf := 0xE8, txFull := true } := by rfl
theorem witness_send_high_byte : runTurn mainTurn (mainAt (.gSend .write2) 203 1000 4 25 true) =
    .next { mainAt (.gSend .ledOff) 203 1000 4 25 true with txBuf := 0x04, txFull := true } := by rfl
theorem witness_send_poll_again : (after (runTurn mainTurn (mainAt (.gSend .test1) 203 1000 4 25 false))).map (·.main.pc) =
    some (.gSend .poll1) := by decide
theorem witness_send_led_and_polls :
    (after (runTurn mainTurn (mainAt (.gSend .ledOn) 203 1 0 25 true))).map (·.led) = some true ∧
    (after (runTurn mainTurn (mainAt (.gSend .poll1) 203 1 0 25 false))).map (·.main.r) = some (some true) ∧
    (after (runTurn mainTurn (mainAt (.gSend .poll2) 203 1 0 25 false))).map (·.main.pc) = some (.gSend .test2) ∧
    (after (runTurn mainTurn (mainAt (.gSend .test2) 203 1 0 25 true))).map (·.main.pc) = some (.gSend .write2) ∧
    (after (runTurn mainTurn (mainAt (.gSend .ledOff) 203 1 0 25 true))).map (·.main.pc) = some .gClear := by decide
theorem witness_main_overruns : (after (runTurn mainTurn { mainAt (.gSend .write1) 203 100 2 25 true with
    txFull := true })).map (·.faults) = some [.txOverrun] := by decide
theorem witness_main_overruns_second : (after (runTurn mainTurn { mainAt (.gSend .write2) 203 100 2 25 true with
    txFull := true })).map (fun t => (t.faults, t.main.pc)) = some ([.txOverrun], .gSend .ledOff) := by decide
theorem witness_first_send_of_main :
    runTurn mainTurn { State.reset with main := { State.reset.main with pc := .gSend .ledOn, l := some 1, h := some 0 } } =
    .next (setLed true { State.reset with
      main := { State.reset.main with pc := .gSend .poll1, l := some 1, h := some 0 } }) := by rfl
theorem witness_button_entry : runTurn .bctx { State.reset with btnPend := true } =
    .next { State.reset with bctx := { active := true, pc := .bSend .ledOn, r := none } } := by rfl
theorem witness_button_idle : runTurn .bctx State.reset = .refused (.notEnabled .bctx) := by rfl
theorem witness_first_rest_frame : (after (runTurn .bctx { State.reset with
    bctx := { active := true, pc := .bSend .poll1, r := none } })).map (·.bctx) =
    some { active := true, pc := .bSend .test1, r := some true } := by decide
theorem witness_rest_frame :
    (after (runTurn .bctx (bctxAt (.bSend .ledOn) true))).map (·.led) = some true ∧
    (after (runTurn .bctx (bctxAt (.bSend .poll1) false))).map (·.bctx.r) = some (some true) ∧
    (after (runTurn .bctx (bctxAt (.bSend .test1) false))).map (·.bctx.pc) = some (.bSend .poll1) ∧
    (after (runTurn .bctx (bctxAt (.bSend .write1) true))).map (·.txFull) = some true ∧
    (after (runTurn .bctx (bctxAt (.bSend .poll2) true))).map (·.bctx.pc) = some (.bSend .test2) ∧
    (after (runTurn .bctx (bctxAt (.bSend .test2) true))).map (·.bctx.pc) = some (.bSend .write2) ∧
    (after (runTurn .bctx (bctxAt (.bSend .write2) true))).map (·.bctx.pc) = some (.bSend .ledOff) ∧
    (after (runTurn .bctx (bctxAt (.bSend .ledOff) true))).map (·.bctx.pc) = some .bRet ∧
    (after (runTurn .bctx (bctxAt .bRet true))).map (·.bctx.active) = some false := by decide
/-- MAIN at its last poll of a window: three states of a run, then the last one for ever. -/
def lastPoll : Nat → State
  | 0 => { mainAt .gWait 203 0 0 24 false with wt := 25, schedule := [mainTurn, mainTurn] }
  | 1 => { mainAt .gWaitTest 203 0 0 25 false with
    wt := 25
    trace := [.read (.wt 25)]
    returned := some (.wt 25)
    schedule := [mainTurn] }
  | _ => { mainAt .gDisarm 203 0 0 25 false with
    wt := 25
    trace := [.read (.wt 25)]
    returned := some (.wt 25) }

theorem test_last_poll_steps : step (lastPoll 0) = .next (lastPoll 1) ∧ step (lastPoll 1) = .next (lastPoll 2) := ⟨rfl, rfl⟩

/-- A poll that reads 25 in time meets the premise (42_host_protocol.md R188). -/
theorem test_poll_in_time_holds : PollInTime lastPoll
  | 0, _, _ => ⟨0, le_refl 0, fun k _ hk => by rw [Nat.le_zero.mp hk]; rfl, .inl ⟨rfl, rfl, rfl⟩⟩
  | 1, _, h => by rcases h with h | ⟨_, h⟩ <;> simp [lastPoll, mainAt] at h
  | _ + 2, _, h => by rcases h with h | ⟨h, _⟩ <;> simp [lastPoll, mainAt] at h

/-- A tick served before MAIN reads 25 breaks it (70_reset_and_hazards.md R252). -/
theorem test_poll_in_time_fails : ¬ PollInTime fun n =>
    { mainAt .gWait 203 0 0 24 false with wt := if n = 0 then 25 else 26, tickPend := true, schedule := [.issue .svc 0x3000] } := by
  intro h
  obtain ⟨m, _, hw, hm⟩ := h 0 rfl (.inl rfl)
  have := hw m (Nat.zero_le m) (le_refl m)
  rcases hm with ⟨_, _, hm⟩ | hm <;> simp [nextTurn, Turn.isMain] at hm

/-- At G_SAMPLE MAIN is enabled exactly when the oracle offers a result (42_host_protocol.md R171). -/
theorem test_main_enabled_at_sample : State.reset.mainEnabled ↔ (Config.freeOffer 0).isSome = true := by
  simp [mainEnabled_iff, mainWaitsForAdc, State.reset, Option.isSome_iff_ne_none]

theorem test_unwritten_local_faults : step (placed mainTurn { State.reset with main := { State.reset.main with
    pc := .gTest } }) = .fault (.unwrittenLocal .mainL) := by rfl

/-! ### Witnesses of the invariants and laws -/

theorem witness_legal : State.reset.Legal := by constructor <;> decide
theorem witness_legal_step : step (placed (.issue .env 0x2800) State.reset) =
    .next { State.reset with trace := [.line true] } := by rfl
theorem witness_locals_ready_step : (placed (.main (some 512) false false) State.reset).LocalsReady ∧
    (after (step (placed (.main (some 512) false false) State.reset))).map (·.main.v) = some (some 512) :=
  ⟨⟨rfl, rfl⟩, by decide⟩
theorem witness_silent_step : (nextTurn (placed (.main (some 202) false false) State.reset)).bringsNoSignal = true ∧
    (after (step (placed (.main (some 202) false false) State.reset))).map (·.main.pc) = some .gGate := by decide
theorem witness_silent : (placed (.main (some 202) false false) State.reset).Silent :=
  ⟨.inl rfl, rfl, ⟨rfl, rfl, rfl⟩, ⟨rfl, rfl, rfl⟩, ⟨rfl, rfl⟩, rfl, rfl⟩
theorem witness_gate_silent : { mainAt .gGate 202 0 0 0 false with schedule := [mainTurn] }.Silent :=
  ⟨.inr ⟨rfl, 202, rfl, by decide⟩, rfl, ⟨rfl, rfl, rfl⟩, ⟨rfl, rfl, rfl⟩, ⟨rfl, rfl⟩, rfl, rfl⟩
theorem witness_main_buffer_free : (placed mainTurn (mainAt (.gSend .write1) 203 100 2 25 true)).MainBufferFree ∧
    (nextTurn (placed mainTurn (mainAt (.gSend .write1) 203 100 2 25 true))).notButton = true ∧
    (after (step (placed mainTurn (mainAt (.gSend .write1) 203 100 2 25 true)))).map (·.txFull) = some true :=
  ⟨rfl, rfl, by decide⟩
theorem witness_bctx_buffer_free : (placed .bctx (bctxAt (.bSend .write2) true)).BctxBufferFree ∧
    (nextTurn (placed .bctx (bctxAt (.bSend .write2) true))).followsPrograms = true ∧
    (after (step (placed .bctx (bctxAt (.bSend .write2) true)))).map (·.txFull) = some true :=
  ⟨fun _ => rfl, rfl, by decide⟩
theorem witness_main_turn_moves : runTurn mainTurn (mainAt .gSettle 0 0 0 0 false) =
    .next (mainAt .gArm 0 0 0 0 false) := by rfl
theorem witness_rollover : (∀ i ∈ [Instr.arm, .edge, .edgeSvc], i.keepsCounts = true) ∧
    (after (execAll [.arm, .edge, .edgeSvc] State.reset)).map State.totalEdges = some 1 := by decide
theorem witness_serviced_edges : (armedAt 0 false).edgePend = false ∧ (armedAt 0 false).low = 0 ∧
    (armedAt 0 false).high = 0 := by decide
theorem witness_tick_law : (∀ i ∈ [Instr.clk, .edge, .edge], i.keepsWindow = true) ∧
    (after (execAll [.clk, .edge, .edge] (armedAt 0 false))).map (·.winBase) = some 1 := by decide
theorem witness_edge_accounting : (after (execAll [.edge, .edge, .edgeSvc, .edge, .disarm false false]
    (armedAt 0 false))).map (fun t => (t.low, t.edgePend, t.trace)) = some (1, false, [.lostEdge]) := by decide
set_option maxRecDepth 4000 in
theorem witness_frame_back_to_back :
    (after (execAll (.txWr 0x41 :: List.replicate 10 .baud ++ .txWr 0x04 :: List.replicate 10 .baud) State.reset)).map
      (fun t => (lineLevels t.trace, t.faults)) = some (charLevels 0x41 ++ charLevels 0x04, []) := by rfl
theorem witness_line_image : State.reset.txBusy = false ∧ State.reset.txFull = false := by decide
theorem witness_pending_across_disarm : (edgeAt 249 3).edgePend = true ∧
    (after (execAll [.disarm false true, .rdLow, .edgeSvc, .rdHigh] (edgeAt 249 3))).map State.trace =
      some [.read (.low 249), .read (.high 4)] := by decide
theorem witness_pending_tick_wiped : (after (execAll [.disarm true true, .rdLow, .rdHigh, .tickSvc, .clear]
    { edgeAt 0 0 with tickPend := true })).map (fun t => (t.wt, t.tickPend)) = some (0, false) := by decide
theorem witness_pending_tick_across_disarm : (after (execAll [.disarm true true, .clear, .tickSvc]
    { edgeAt 0 0 with tickPend := true })).map (·.wt) = some 1 := by decide
theorem witness_receiver_63999 : (edgeAt 249 255).high.toNat < 256 ∧
    receivedFrames (frameBytes 249 255) = [(0xF9, 0xFF)] ∧ receivedEdges (0xF9, 0xFF) = 63999 ∧
    receivedHz (0xF9, 0xFF) = 255996 := by decide
theorem witness_receiver_64000_is_rest : (receivedFrames (frameBytes 0 256)).map isRest = [true] := by decide

end Sys2Proof.Tests
end

/-!
PROOFS. The statements of 10_state.md: who writes an element, what is sticky, what keeps the registers legal and the
host locals written.
-/

namespace Sys2Proof.Machine

/-! ### Taking a turn -/

@[simp] theorem takeTurn_wt (s : State) : (takeTurn s).wt = s.wt := by
  obtain ⟨sch, n, h⟩ := takeTurn_eq s; rw [h]

@[simp] theorem takeTurn_tickPend (s : State) : (takeTurn s).tickPend = s.tickPend := by
  obtain ⟨sch, n, h⟩ := takeTurn_eq s; rw [h]

@[simp] theorem takeTurn_faults (s : State) : (takeTurn s).faults = s.faults := by
  obtain ⟨sch, n, h⟩ := takeTurn_eq s; rw [h]

@[simp] theorem takeTurn_refused (s : State) : (takeTurn s).refused = s.refused := by
  obtain ⟨sch, n, h⟩ := takeTurn_eq s; rw [h]

@[simp] theorem takeTurn_main (s : State) : (takeTurn s).main = s.main := by
  obtain ⟨sch, n, h⟩ := takeTurn_eq s; rw [h]

@[simp] theorem takeTurn_bctx (s : State) : (takeTurn s).bctx = s.bctx := by
  obtain ⟨sch, n, h⟩ := takeTurn_eq s; rw [h]

/-! ### Who writes an element -/

/-- Settles O27: the case lemma of each operation lists all it writes. -/
theorem onlyListedOperationsWriteAnElement : Obligations.OnlyListedOperationsWriteAnElement := by
  unfold Obligations.OnlyListedOperationsWriteAnElement
  intro i s t h
  cases i <;> simp only [exec] at h
  case clk =>
    rcases execClk_cases h with ⟨_, rfl⟩ | ⟨_, _, rfl⟩ | ⟨_, _, _, rfl⟩ | ⟨_, _, _, rfl⟩ <;> simp [Instr.mnemonic]
  case edge => rcases execEdge_cases h with ⟨_, rfl⟩ | ⟨_, _, rfl⟩ | ⟨_, _, rfl⟩ <;> simp [Instr.mnemonic]
  case btn => rcases execBtn_cases h with ⟨_, rfl⟩ | ⟨_, rfl⟩ <;> simp [Instr.mnemonic]
  case baud =>
    rcases execBaud_cases h with ⟨_, _, rfl⟩ | ⟨_, _, rfl⟩ | ⟨_, _, rfl⟩ | ⟨_, _, _, rfl⟩ <;> simp [Instr.mnemonic]
  case tickSvc => obtain ⟨_, rfl⟩ := execTickSvc_eq_next.mp h; simp [Instr.mnemonic]
  case edgeSvc => rcases execEdgeSvc_cases h with ⟨_, ⟨_, rfl⟩ | ⟨_, rfl⟩⟩ <;> simp [Instr.mnemonic]
  case txWr => rcases execTxWr_cases h with ⟨_, rfl⟩ | ⟨_, rfl⟩ <;> simp [Instr.mnemonic]
  all_goals (cases h; simp [Instr.mnemonic, setLed])

/-! ### FAULTS and REFUSED -/

/-- An operation keeps FAULTS or raises TxOverrun (60_exceptions.md R201). -/
theorem exec_faults {i : Instr} {s t : State} (h : exec i s = .next t) :
    t.faults = s.faults ∨ t.faults = (s.raiseFault .txOverrun).faults := by
  obtain ⟨_, _, _, _, _, _, _, _, _, _, _, hf, _⟩ := onlyListedOperationsWriteAnElement i s t h
  cases i
  case txWr =>
    rcases execTxWr_cases h with ⟨_, rfl⟩ | ⟨_, rfl⟩
    · exact .inl rfl
    · exact .inr rfl
  all_goals exact .inl (hf (by simp [Instr.mnemonic]))

/-- No operation marks a refusal or takes it back (10_state.md R37). -/
theorem exec_refused {i : Instr} {s t : State} (h : exec i s = .next t) : t.refused = s.refused := by
  obtain ⟨_, _, _, _, _, _, _, _, _, _, _, _, hr, _⟩ := onlyListedOperationsWriteAnElement i s t h
  exact hr

/-- Raising a fault keeps the faults there are and adds none but its own. -/
theorem State.mem_raiseFault_faults {s : State} {f g : FaultName} :
    g ∈ (s.raiseFault f).faults ↔ g ∈ s.faults ∨ g = f := by
  by_cases hf : f ∈ s.faults <;> simp [hf]

/-- A step keeps FAULTS or raises TxOverrun. -/
theorem step_faults {s t : State} (h : step s = .next t) :
    t.faults = s.faults ∨ t.faults = (s.raiseFault .txOverrun).faults := by
  obtain ⟨u, m, b, hu, rfl⟩ := step_block h
  rcases hu with rfl | rfl | rfl | ⟨i, he⟩
  · exact .inl (takeTurn_faults s)
  · exact .inl (takeTurn_faults s)
  · exact .inl (takeTurn_faults s)
  · simpa using exec_faults he

/-- A step sets REFUSED exactly if it refuses a word, reserved or ill-formed (60_exceptions.md R202). -/
theorem step_refused {s t : State} (h : step s = .next t) :
    t.refused = true ↔ s.refused = true ∨
      ∃ a w, nextTurn s = .issue a w ∧ ∀ i, decode w = .ok i → wellIssued a i = false := by
  rcases runTurn_cases h with ⟨a, w, ht, hn, rfl⟩ | ⟨a, w, i, ht, hd, hw, _, he⟩ | ⟨o, kt, ke, ht, _, hm⟩ |
    ⟨ht, _, hb⟩ | ⟨ht, _, _, rfl⟩
  · exact iff_of_true rfl (.inr ⟨a, w, ht, hn⟩)
  · have hno : ¬ ∃ a' w', nextTurn s = .issue a' w' ∧ ∀ j, decode w' = .ok j → wellIssued a' j = false := by
      rintro ⟨a', w', ht', hn⟩
      cases ht.symm.trans ht'
      simp [hn i hd] at hw
    simp [exec_refused he, hno]
  · obtain ⟨u, m, rfl | ⟨i, _, he⟩, rfl⟩ := mainStep_block hm
    · simp [ht]
    · simp [ht, exec_refused he]
  · obtain ⟨u, b, rfl | he | he | he | he, rfl⟩ := bctxProgram_block hb
    · simp [ht]
    all_goals simp [ht, exec_refused he]
  · simp [ht]

/-- Settles O38: from what one step does to FAULTS and to REFUSED. -/
theorem faultsAndRefusalAreSticky : Obligations.FaultsAndRefusalAreSticky := by
  unfold Obligations.FaultsAndRefusalAreSticky
  refine ⟨rfl, rfl, fun s t h => ?_⟩
  rcases step_faults h with hf | hf
  · exact ⟨fun f => hf ▸ id, fun f => hf ▸ .inl, step_refused h⟩
  · simp only [hf, State.mem_raiseFault_faults]
    exact ⟨fun f => .inl, fun f => id, step_refused h⟩

/-! ### Legal registers -/

/-- Legality speaks of LOW, WINBASE, the shifter, the line and FAULTS only. -/
theorem State.Legal.of_eq {s t : State} (hs : s.Legal) (hlow : t.low = s.low) (hwin : t.winBase = s.winBase)
    (htx : t.txBusy = s.txBusy ∧ t.txShift = s.txShift ∧ t.txIdx = s.txIdx ∧ t.txd = s.txd)
    (hf : t.faults = s.faults) : t.Legal := by
  obtain ⟨hbusy, hshift, hidx, htxd⟩ := htx
  obtain ⟨low, win, idx, idle, txd, start, stop, nodup⟩ := hs
  constructor <;> simpa only [hlow, hwin, hbusy, hshift, hidx, htxd, hf]

/-- The window time base stays below its period: it counts below 9999 and wraps there (10_state.md R27). -/
theorem execClk_keeps_legal {s t : State} (hs : s.Legal) (h : execClk s = .next t) : t.Legal := by
  rcases execClk_cases h with ⟨_, rfl⟩ | ⟨_, hw, rfl⟩ | ⟨_, _, _, rfl⟩ | ⟨_, _, _, rfl⟩
  · exact hs
  · have hwin : (s.winBase + 1).toNat < 10000 := by
      have := hs.winBase
      bv_omega
    exact { hs with winBase := hwin }
  · exact { hs with winBase := by simp }
  · exact { hs with winBase := by simp }

/-- LOW stays below its wrap value: at 249 it carries (10_state.md R23). -/
theorem execEdgeSvc_keeps_legal {s t : State} (hs : s.Legal) (h : execEdgeSvc s = .next t) : t.Legal := by
  rcases execEdgeSvc_cases h with ⟨_, ⟨_, rfl⟩ | ⟨hl, rfl⟩⟩
  · exact { hs with low := by simp }
  · have hlow : (s.low + 1).toNat < 250 := by
      have := hs.low
      bv_omega
    exact { hs with low := hlow }

/-- BAUD drives the line with the bit it moves to, and starts a character with its start bit (10_state.md R34, R35). -/
theorem execBaud_keeps_legal {s t : State} (hs : s.Legal) (h : execBaud s = .next t) : t.Legal := by
  rcases execBaud_cases h with ⟨hb, _, rfl⟩ | ⟨_, _, rfl⟩ | ⟨hb, hi, rfl⟩ | ⟨_, _, _, rfl⟩
  · exact { hs with txd := by simp [hb] }
  · exact { hs with
      txIdx := by simp
      txIdxIdle := nofun
      txd := (charOf_start s.txBuf).symm
      startBit := fun _ => charOf_start s.txBuf
      stopBit := fun _ => charOf_stop s.txBuf }
  · have hidx : (s.txIdx + 1).toNat ≤ 9 := by
      have := hs.txIdx
      bv_omega
    exact { hs with txIdx := hidx, txIdxIdle := fun hn => absurd (hb.symm.trans hn) nofun, txd := by simp [hb] }
  · exact { hs with txIdx := by simp, txIdxIdle := fun _ => rfl, txd := rfl, startBit := nofun, stopBit := nofun }

/-- A raised fault is added at most once (10_state.md R37). -/
theorem State.nodup_raiseFault_faults {s : State} (f : FaultName) (hs : s.faults.Nodup) :
    (s.raiseFault f).faults.Nodup := by
  by_cases hf : f ∈ s.faults
  · simpa [hf] using hs
  · simpa [hf] using hs.concat hf

/-- Every operation keeps the registers legal; those that write none of them by the writers' table. -/
theorem exec_keeps_legal {i : Instr} {s t : State} (hs : s.Legal) (h : exec i s = .next t) : t.Legal := by
  obtain ⟨_, hlow, _, hwin, _, _, _, _, _, htx, _, hf, _⟩ := onlyListedOperationsWriteAnElement i s t h
  cases i
  case reset =>
    cases h
    exact { hs with
      low := by simp
      winBase := by simp
      txIdx := by simp
      txIdxIdle := fun _ => rfl
      txd := rfl
      startBit := nofun
      stopBit := nofun }
  case clk => exact execClk_keeps_legal hs h
  case edgeSvc => exact execEdgeSvc_keeps_legal hs h
  case clear => cases h; exact { hs with low := by simp, winBase := by simp }
  case baud => exact execBaud_keeps_legal hs h
  case txWr =>
    rcases execTxWr_cases h with ⟨_, rfl⟩ | ⟨_, rfl⟩
    · exact { hs with }
    · exact { hs with faults := State.nodup_raiseFault_faults _ hs.faults }
  all_goals
    exact hs.of_eq (hlow (by simp [Instr.mnemonic])).1 (hwin (by simp [Instr.mnemonic])).1
      (htx (by simp [Instr.mnemonic])) (hf (by simp [Instr.mnemonic]))

theorem takeTurn_keeps_legal {s : State} (hs : s.Legal) : (takeTurn s).Legal := by
  obtain ⟨sch, n, h⟩ := takeTurn_eq s
  rw [h]
  exact { hs with }

/-- Settles O45: of all a step does to the block, only its operation touches a register legality speaks of. -/
theorem stepKeepsLegalRegisters : Obligations.StepKeepsLegalRegisters := by
  unfold Obligations.StepKeepsLegalRegisters
  intro s t hs h
  have hs' := takeTurn_keeps_legal hs
  obtain ⟨u, m, b, hu, rfl⟩ := step_block h
  have hleg : u.Legal := by
    rcases hu with rfl | rfl | rfl | ⟨i, he⟩
    · exact hs'
    · exact { hs' with }
    · exact { hs' with }
    · exact exec_keeps_legal hs' he
  exact { hleg with }

/-! ### Host locals -/

theorem takeTurn_localsReady {s : State} (hs : s.LocalsReady) : (takeTurn s).LocalsReady := by
  simpa [State.LocalsReady] using hs

/-- An operation keeps the contexts ready: RESET puts MAIN where no local is read and BCTX to rest. -/
theorem exec_keeps_localsReady {i : Instr} {s t : State} (hs : s.LocalsReady) (h : exec i s = .next t) :
    t.LocalsReady := by
  rcases exec_contexts h with ⟨hm, hb⟩ | ⟨_, hm, hb⟩
  · simpa [State.LocalsReady, hm, hb] using hs
  · constructor
    · simp [MainCtx.ready, hm]
    · cases hpc : s.bctx.pc <;> simp [BctxCtx.ready, hb, hpc]

/-- SEND_FRAME comes to a test of `r` only from the poll that writes `r` (30_encoding.md R92). -/
theorem sendStep_rWritten {nA nB nR : HostLocal} {a b : Option Word} {k k' : SendPc} {r : Option Bool} {s : State}
    {x : SendResult} (h : sendStep nA nB nR a b k r s = .next x) (hk : x.next = some k') :
    k'.rWritten x.r = true := by
  cases k <;> simp only [sendStep, sendIssue, sendPoll, sendTest, sendWrite, andThen_eq_next, withLocal_eq_next] at h
  case poll1 => obtain ⟨s', he, hx⟩ := h; cases hx; cases hk; cases he; rfl
  case poll2 => obtain ⟨s', he, hx⟩ := h; cases hx; cases hk; cases he; rfl
  case test1 => obtain ⟨v, _, hx⟩ := h; cases hx; cases hk; cases v <;> rfl
  case test2 => obtain ⟨v, _, hx⟩ := h; cases hx; cases hk; cases v <;> rfl
  case write1 => obtain ⟨v, _, s', _, hx⟩ := h; cases hx; cases hk; rfl
  case write2 => obtain ⟨v, _, s', _, hx⟩ := h; cases hx; cases hk; rfl
  all_goals obtain ⟨s', _, hx⟩ := h; cases hx; cases hk <;> rfl

/-- MAIN's program writes every local before the step that reads it (42_host_protocol.md R170). -/
theorem mainStep_keeps_ready {p : Params} {offer : Option AdcResult} {kt ke : Bool} {s t : State}
    (hs : s.main.ready = true) (h : mainStep p offer kt ke s = .next t) : t.main.ready = true := by
  cases hpc : s.main.pc <;> simp only [mainStep, hpc] at h
  case gSample => cases offer <;> cases h; rfl
  case gGate =>
    obtain ⟨v, _, h⟩ := withLocal_eq_next.mp h
    cases h
    simp only [State.mainGoto]; split <;> rfl
  case gWaitTest =>
    obtain ⟨v, _, h⟩ := withLocal_eq_next.mp h
    cases h
    simp only [State.mainGoto]; split <;> rfl
  case gReadHigh => cases h; simpa [MainCtx.ready, hpc] using hs
  case gTest =>
    obtain ⟨l, hl, h⟩ := withLocal_eq_next.mp h
    obtain ⟨g, hg, h⟩ := withLocal_eq_next.mp h
    cases h
    simp only [State.mainGoto]; split <;> simp [MainCtx.ready, hl, hg, SendPc.rWritten]
  case gSend k =>
    obtain ⟨x, hx, h⟩ := andThen_eq_next.mp h
    cases h
    obtain ⟨hm, _⟩ := sendStep_contexts hx
    have hlh : s.main.l.isSome = true ∧ s.main.h.isSome = true := by
      simp only [MainCtx.ready, hpc, Bool.and_eq_true] at hs
      exact hs.1
    cases hk : x.next with
    | none => rfl
    | some k' => simp [MainCtx.ready, hm, hlh, sendStep_rWritten hx hk]
  all_goals cases h; rfl

/-- A step of MAIN leaves BCTX's state. -/
theorem mainStep_bctx {p : Params} {offer : Option AdcResult} {kt ke : Bool} {s t : State}
    (h : mainStep p offer kt ke s = .next t) : t.bctx = s.bctx := by
  obtain ⟨u, m, rfl | ⟨i, hw, he⟩, rfl⟩ := mainStep_block h
  · rfl
  · rcases exec_contexts he with ⟨_, hb⟩ | ⟨rfl, _⟩
    · exact hb
    · cases hw

/-- BCTX's program leaves MAIN and comes to a test of `r` only from the poll that writes it
(42_host_protocol.md R183). -/
theorem bctxProgram_keeps_localsReady {s t : State} (hs : s.LocalsReady) (h : bctxProgram s = .next t) :
    t.LocalsReady := by
  obtain ⟨hmain, _⟩ := hs
  unfold bctxProgram at h
  split at h
  · obtain ⟨x, hx, h⟩ := andThen_eq_next.mp h
    cases h
    obtain ⟨hm, _⟩ := sendStep_contexts hx
    refine ⟨hm ▸ hmain, ?_⟩
    cases hk : x.next with
    | none => rfl
    | some k' => simp [BctxCtx.ready, sendStep_rWritten hx hk]
  · next hpc => cases h; exact ⟨hmain, by simp [BctxCtx.ready, hpc]⟩

/-- Settles O48: by what each kind of turn does to the contexts. -/
theorem stepKeepsNeededLocalsWritten : Obligations.StepKeepsNeededLocalsWritten := by
  unfold Obligations.StepKeepsNeededLocalsWritten
  intro s t hs h
  have hs' := takeTurn_localsReady hs
  rcases runTurn_cases h with ⟨_, _, _, _, rfl⟩ | ⟨_, _, i, _, _, _, _, he⟩ | ⟨_, _, _, _, _, hm⟩ |
    ⟨_, _, hb⟩ | ⟨_, _, _, rfl⟩
  · exact hs'
  · exact exec_keeps_localsReady hs' he
  · obtain ⟨hmain, hbctx⟩ := hs'
    exact ⟨mainStep_keeps_ready hmain hm, mainStep_bctx hm ▸ hbctx⟩
  · exact bctxProgram_keeps_localsReady hs' hb
  · exact ⟨hs'.1, rfl⟩

/-! ### The word of a decoded operation -/

/-- A word with the op field and the low bits of an operation is its word (30_encoding.md R74). -/
theorem encode_of_fields {i : Instr} {w : Word} (hop : (opField w).toNat = i.op.toNat)
    (hlow : w.extractLsb' 0 11 = i.lowBits) : encode i = w := by
  rw [encode, ← hlow, ← BitVec.eq_of_toNat_eq hop, opField,
    BitVec.extractLsb'_append_extractLsb'_eq_extractLsb' (by rfl), BitVec.extractLsb'_eq_self]

/-- Format Z: the low bits are zero (30_encoding.md R74). -/
theorem encode_of_decodeZ {i j : Instr} {w : Word} (h : decodeZ i w = .ok j) (hop : (opField w).toNat = i.op.toNat)
    (hlow : i.lowBits = 0#11) : encode j = w := by
  unfold decodeZ at h
  split at h <;> cases h
  next hz => exact encode_of_fields hop (hz.trans hlow.symm)

/-- Format D: the low bits are zero but for the two draws (30_encoding.md R74). -/
theorem encode_of_decodeD {j : Instr} {w : Word} (h : decodeD w = .ok j) (hop : (opField w).toNat = 0x09) :
    encode j = w := by
  unfold decodeD at h
  split at h <;> cases h
  next hz =>
    have bit (k : Nat) : BitVec.ofBool (w.getLsbD k) = w.extractLsb' k 1 := by
      ext n hn
      simp [show n = 0 by omega]
    refine encode_of_fields hop ?_
    rw [Instr.lowBits, ← hz, bit, bit, BitVec.extractLsb'_append_extractLsb'_eq_extractLsb' (by rfl),
      BitVec.extractLsb'_append_extractLsb'_eq_extractLsb' (by rfl)]

/-- Format B: the low bits are zero but for the byte (30_encoding.md R74). -/
theorem encode_of_decodeB {j : Instr} {w : Word} (h : decodeB w = .ok j) (hop : (opField w).toNat = 0x0F) :
    encode j = w := by
  unfold decodeB at h
  split at h <;> cases h
  next hz =>
    refine encode_of_fields hop ?_
    rw [Instr.lowBits, ← hz, BitVec.extractLsb'_append_extractLsb'_eq_extractLsb' (by rfl)]

/-- A word that decodes is the word of what it decodes to (30_encoding.md R76). -/
theorem encode_of_decode {w : Word} {i : Instr} (h : decode w = .ok i) : encode i = w := by
  unfold decode at h
  split at h <;> rename_i hop
  case h_1 | h_19 => cases h
  case h_10 => exact encode_of_decodeD h hop
  case h_16 => exact encode_of_decodeB h hop
  all_goals exact encode_of_decodeZ h hop rfl

/-! ### WindowTick -/

/-- What an operation can do to WT, in three cases (10_state.md R22). -/
theorem exec_wt_cases {i : Instr} {s t : State} (h : exec i s = .next t) :
    t.wt = s.wt ∨ (i = .tickSvc ∧ s.tickPend = true ∧ t.wt = s.wt + 1) ∨ ((i = .clear ∨ i = .reset) ∧ t.wt = 0) := by
  obtain ⟨hwt, _⟩ := onlyListedOperationsWriteAnElement i s t h
  cases i
  case tickSvc => obtain ⟨hp, rfl⟩ := execTickSvc_eq_next.mp h; exact .inr (.inl ⟨rfl, hp, rfl⟩)
  case clear => cases h; exact .inr (.inr ⟨.inl rfl, rfl⟩)
  case reset => cases h; exact .inr (.inr ⟨.inr rfl, rfl⟩)
  all_goals exact .inl (hwt (by simp [Instr.mnemonic]))

/-- A step of SEND_FRAME leaves WT. -/
theorem sendStep_wt {nA nB nR : HostLocal} {a b : Option Word} {k : SendPc} {r : Option Bool} {s : State}
    {x : SendResult} (h : sendStep nA nB nR a b k r s = .next x) : x.state.wt = s.wt := by
  rcases sendStep_block h with ⟨_, hx⟩ | ⟨_, hx⟩ | ⟨_, hx⟩ | ⟨_, hx⟩ | ⟨v, _, hx⟩
  · rw [hx]
  all_goals simpa using exec_wt_cases hx

/-- MAIN's program leaves WT but at G_CLEAR, where it writes 0 (42_host_protocol.md R180). -/
theorem mainStep_wt {p : Params} {offer : Option AdcResult} {kt ke : Bool} {s t : State}
    (h : mainStep p offer kt ke s = .next t) : t.wt = s.wt ∨ (s.main.pc = .gClear ∧ t.wt = 0) := by
  cases hpc : s.main.pc <;> simp only [mainStep, hpc] at h
  case gClear => cases h; exact .inr ⟨rfl, rfl⟩
  all_goals left
  case gSample => cases offer <;> cases h; rfl
  case gGate => obtain ⟨v, _, h⟩ := withLocal_eq_next.mp h; cases h; rfl
  case gWaitTest => obtain ⟨v, _, h⟩ := withLocal_eq_next.mp h; cases h; rfl
  case gTest =>
    obtain ⟨l, _, h⟩ := withLocal_eq_next.mp h
    obtain ⟨g, _, h⟩ := withLocal_eq_next.mp h
    cases h; rfl
  case gSend => obtain ⟨x, hx, h⟩ := andThen_eq_next.mp h; cases h; exact sendStep_wt hx
  all_goals cases h; rfl

/-- BCTX's program leaves WT (42_host_protocol.md R183). -/
theorem bctxProgram_wt {s t : State} (h : bctxProgram s = .next t) : t.wt = s.wt := by
  obtain ⟨u, b, rfl | he | he | he | he, rfl⟩ := bctxProgram_block h
  · rfl
  all_goals simpa using exec_wt_cases he

/-- Settles O40: the turn that ran an operation that writes WT is found from its word and its issuers. -/
theorem windowTickHasOneIncrementer : Obligations.WindowTickHasOneIncrementer := by
  unfold Obligations.WindowTickHasOneIncrementer
  intro s t h hne
  rw [← takeTurn_wt s] at hne
  rcases runTurn_cases h with ⟨_, _, _, _, rfl⟩ | ⟨a, w, i, ht, hd, hw, _, he⟩ | ⟨_, _, _, ht, _, hm⟩ |
    ⟨_, _, hb⟩ | ⟨_, _, _, rfl⟩
  · exact absurd rfl hne
  · obtain rfl := encode_of_decode hd
    rw [ht]
    rcases exec_wt_cases he with heq | ⟨rfl, hp, hwt⟩ | ⟨rfl | rfl, hwt⟩
    · exact absurd heq hne
    · cases a <;> cases hw
      exact .inl ⟨by simpa using hwt, by simpa using hp, rfl⟩
    · refine .inr ⟨hwt, ?_⟩
      cases a <;> cases hw
      · exact .inr (.inl rfl)
      · exact .inr (.inr (.inl rfl))
    · cases a <;> cases hw
      exact .inr ⟨hwt, .inl rfl⟩
  · obtain heq | ⟨hpc, hwt⟩ := mainStep_wt hm
    · exact absurd heq hne
    · exact .inr ⟨hwt, .inr (.inr (.inr ⟨by rw [ht]; rfl, by simpa using hpc⟩))⟩
  · exact absurd (bctxProgram_wt hb) hne
  · exact absurd rfl hne

/-! ### Steps that answer -/

/-- SEND_FRAME steps once the locals it reads are written. -/
theorem sendStep_answers {nA nB nR : HostLocal} {a b : Option Word} {k : SendPc} {r : Option Bool} (s : State)
    (hr : k.rWritten r = true) (ha : a.isSome = true) (hb : b.isSome = true) :
    ∃ x, sendStep nA nB nR a b k r s = .next x := by
  obtain ⟨a, rfl⟩ := Option.isSome_iff_exists.mp ha
  obtain ⟨b, rfl⟩ := Option.isSome_iff_exists.mp hb
  cases k
  case test1 => obtain ⟨r, rfl⟩ := Option.isSome_iff_exists.mp hr; exact ⟨_, rfl⟩
  case test2 => obtain ⟨r, rfl⟩ := Option.isSome_iff_exists.mp hr; exact ⟨_, rfl⟩
  all_goals exact ⟨_, rfl⟩

/-- MAIN has no step while it waits for the ADC (42_host_protocol.md R171). -/
theorem mainStep_waits {p : Params} {offer : Option AdcResult} {kt ke : Bool} {s : State}
    (hw : mainWaitsForAdc offer s = true) : mainStep p offer kt ke s = .refused (.notEnabled .main) := by
  obtain ⟨hpc, ho⟩ : s.main.pc = .gSample ∧ offer = none := by simpa [mainWaitsForAdc] using hw
  simp [mainStep, hpc, mainSample, ho]

/-- Elsewhere MAIN steps once the locals it reads are written. -/
theorem mainStep_answers (p : Params) {offer : Option AdcResult} (kt ke : Bool) {s : State}
    (hs : s.main.ready = true) (hw : mainWaitsForAdc offer s = false) :
    ∃ t, mainStep p offer kt ke s = .next t := by
  cases hpc : s.main.pc <;> simp only [MainCtx.ready, hpc, Bool.and_eq_true] at hs <;> simp only [mainStep, hpc]
  case gSample =>
    obtain ⟨v, rfl⟩ : ∃ v, offer = some v := by simpa [mainWaitsForAdc, hpc, ← Option.isSome_iff_exists] using hw
    exact ⟨_, rfl⟩
  case gGate =>
    obtain ⟨v, hv⟩ := Option.isSome_iff_exists.mp hs
    exact ⟨_, withLocal_eq_next.mpr ⟨v, hv, rfl⟩⟩
  case gWaitTest =>
    obtain ⟨v, hv⟩ := Option.isSome_iff_exists.mp hs
    exact ⟨_, withLocal_eq_next.mpr ⟨v, hv, rfl⟩⟩
  case gTest =>
    obtain ⟨hl, hh⟩ := hs
    obtain ⟨l, hl⟩ := Option.isSome_iff_exists.mp hl
    obtain ⟨g, hg⟩ := Option.isSome_iff_exists.mp hh
    exact ⟨_, withLocal_eq_next.mpr ⟨l, hl, withLocal_eq_next.mpr ⟨g, hg, rfl⟩⟩⟩
  case gSend k =>
    obtain ⟨⟨hl, hh⟩, hr⟩ := hs
    obtain ⟨x, hx⟩ := sendStep_answers s hr hl hh
    exact ⟨_, andThen_eq_next.mpr ⟨x, hx, rfl⟩⟩
  all_goals exact ⟨_, rfl⟩

/-- An active BCTX steps once the local it reads is written (42_host_protocol.md R183). -/
theorem bctxProgram_answers {s : State} (ha : s.bctx.active = true) (hs : s.bctx.ready = true) :
    ∃ t, bctxProgram s = .next t := by
  cases hpc : s.bctx.pc <;> simp only [bctxProgram, hpc]
  case bSend k =>
    have hr : k.rWritten s.bctx.r = true := by simpa [BctxCtx.ready, hpc, ha] using hs
    obtain ⟨x, hx⟩ := sendStep_answers (a := some 0) (b := some 0) s hr rfl rfl
    exact ⟨_, andThen_eq_next.mpr ⟨x, hx, rfl⟩⟩
  case bRet => exact ⟨_, rfl⟩

/-- No turn faults while the locals the contexts read are written. -/
theorem runTurn_ne_fault {s : State} (hs : s.LocalsReady) (t : Turn) (f : Fault) : runTurn t s ≠ .fault f := by
  obtain ⟨hmain, hbctx⟩ := hs
  cases t <;> simp only [runTurn]
  case issue a w =>
    rcases issueWord_cases a w s with ⟨_, hr⟩ | ⟨i, _, _, _, hr⟩ | ⟨_, hr⟩ <;> rw [hr]
    · exact nofun
    · exact exec_ne_fault i s f
    · exact nofun
  case main offer kt ke =>
    split
    · cases hw : mainWaitsForAdc offer s with
      | true => rw [mainStep_waits hw]; exact nofun
      | false => obtain ⟨u, hu⟩ := mainStep_answers _ kt ke hmain hw; rw [hu]; exact nofun
    · exact nofun
  case bctx =>
    unfold bctxStep
    split
    · next ha => obtain ⟨u, hu⟩ := bctxProgram_answers ha hbctx; rw [hu]; exact nofun
    · split <;> exact nofun

/-- A word issued by an agent that may issue it and runs does its operation. -/
theorem runTurn_issue_encode {a : Agent} {i : Instr} {s : State} (hd : decode (encode i) = .ok i)
    (hw : wellIssued a i = true) (hr : agentRuns a s = true) : runTurn (.issue a (encode i)) s = exec i s := by
  simp [runTurn, issueWord, hd, hw, hr]

/-- ENV's turns always step (42_host_protocol.md R185 a). -/
theorem envTurns_answer {t : Turn} (ht : t ∈ envTurns) (s : State) : ∃ u, runTurn t s = .next u := by
  simp only [envTurns, List.mem_cons, List.not_mem_nil, or_false] at ht
  rcases ht with rfl | rfl | rfl | rfl | rfl <;> rw [runTurn_issue_encode (by decide) rfl rfl] <;>
    exact exec_answers (by decide) (by decide) s

/-- SVC's enabled turns step (42_host_protocol.md R185 b). -/
theorem svcTurns_answer {t : Turn} {s : State} (ht : t ∈ svcTurns s) : ∃ u, runTurn t s = .next u := by
  obtain ⟨hp, rfl⟩ | ⟨hp, rfl⟩ : (s.tickPend = true ∧ t = .issue .svc (encode .tickSvc)) ∨
      (s.edgePend = true ∧ t = .issue .svc (encode .edgeSvc)) := by
    simpa [svcTurns] using ht
  · rw [runTurn_issue_encode (by decide) rfl rfl]
    exact ⟨_, execTickSvc_eq_next.mpr ⟨hp, rfl⟩⟩
  · rw [runTurn_issue_encode (by decide) rfl rfl]
    exact ⟨_, execEdgeSvc_eq_next.mpr ⟨hp, rfl⟩⟩

/-- BCTX's enabled turn steps (42_host_protocol.md R182, R183). -/
theorem bctxTurns_answer {t : Turn} {s : State} (hs : s.bctx.ready = true) (ht : t ∈ bctxTurns s) :
    ∃ u, runTurn t s = .next u := by
  obtain ⟨hen, rfl⟩ : (s.bctx.active = true ∨ s.btnPend = true) ∧ t = .bctx := by simpa [bctxTurns] using ht
  cases ha : s.bctx.active with
  | true => simpa [runTurn, bctxStep, ha] using bctxProgram_answers ha hs
  | false => simp [runTurn, bctxStep, ha, hen.resolve_left (by simp [ha])]

/-- MAIN's enabled turn steps (42_host_protocol.md R171, R185 d). -/
theorem mainTurns_answer {t : Turn} {offer : Option AdcResult} {kt ke : Bool} {s : State}
    (hs : s.main.ready = true) (ht : t ∈ mainTurns offer kt ke s) : ∃ u, runTurn t s = .next u := by
  obtain ⟨⟨ha, hw⟩, rfl⟩ : (s.bctx.active = false ∧ mainWaitsForAdc offer s = false) ∧ t = .main offer kt ke := by
    simpa [mainTurns] using ht
  simpa [runTurn, agentRuns, ha] using mainStep_answers Config.params kt ke hs hw

/-- Every turn an agent may take steps, once the locals the contexts read are written (42_host_protocol.md R185). -/
theorem enabledTurns_answer {t : Turn} {offer : Option AdcResult} {kt ke : Bool} {s : State} (hs : s.LocalsReady)
    (ht : t ∈ enabledTurns offer kt ke s) : ∃ u, runTurn t s = .next u := by
  obtain ⟨hmain, hbctx⟩ := hs
  simp only [enabledTurns, List.mem_append] at ht
  rcases ht with ((ht | ht) | ht) | ht
  · exact envTurns_answer ht s
  · exact svcTurns_answer ht
  · exact bctxTurns_answer hbctx ht
  · exact mainTurns_answer hmain ht

/-- The free choice is one of the enabled turns (log 2). -/
theorem chooseTurn_mem_freeTurns (s : State) : chooseTurn s ∈ freeTurns s := by
  have hpos : 0 < (freeTurns s).length := by simp [freeTurns, enabledTurns, envTurns]
  have hlt : Config.freePick s.draws % (freeTurns s).length < (freeTurns s).length := Nat.mod_lt _ hpos
  rw [chooseTurn, List.getD_eq_getElem _ _ hlt]
  exact List.getElem_mem hlt

/-- Settles O49: no turn faults, and a free choice is an enabled turn. -/
theorem noStepReadsAnUnwrittenLocal : Obligations.NoStepReadsAnUnwrittenLocal := by
  unfold Obligations.NoStepReadsAnUnwrittenLocal
  intro s hs
  refine ⟨runTurn_ne_fault (takeTurn_localsReady hs) _, fun hfree => ?_⟩
  rw [step_free hfree]
  exact enabledTurns_answer (s := { s with draws := s.draws + 1 }) hs (chooseTurn_mem_freeTurns s)

end Sys2Proof.Machine

/-!
PROOFS. The statements of 30_encoding.md: the two directions of the encoding, the operation map, what is refused, and
the line image of a character.
-/

namespace Sys2Proof.Machine

/-! ### The fields of an operation's word -/

@[simp] theorem opField_encode (i : Instr) : opField (encode i) = i.op := BitVec.extractLsb'_append_eq_left

/-- A field below the op field is read from the low bits of the operation (30_encoding.md R74). -/
theorem extractLsb'_encode (i : Instr) {k n : Nat} (h : k + n ≤ 11) :
    (encode i).extractLsb' k n = i.lowBits.extractLsb' k n :=
  BitVec.extractLsb'_append_eq_of_add_le h

/-- Format Z: the word of an operation without operands has no bit set below its op field (30_encoding.md R74). -/
theorem extractLsb'_encode_eq_zero {i : Instr} (hop : i.op ≠ 0x09) (hop' : i.op ≠ 0x0F) :
    (encode i).extractLsb' 0 11 = 0 := by
  rw [extractLsb'_encode i (by decide), BitVec.extractLsb'_eq_self]
  cases i
  case disarm => exact absurd rfl hop
  case txWr => exact absurd rfl hop'
  all_goals rfl

/-- Format D: above the draws and below the op field no bit is set (30_encoding.md R74). -/
theorem extractLsb'_encode_disarm (kt ke : Bool) : (encode (.disarm kt ke)).extractLsb' 2 9 = 0 := by
  revert kt ke; decide

/-- Format B: above the byte and below the op field no bit is set (30_encoding.md R74). -/
theorem extractLsb'_encode_txWr (b : Byte) : (encode (.txWr b)).extractLsb' 8 3 = 0 := by
  rw [extractLsb'_encode _ (by decide)]
  exact BitVec.extractLsb'_append_eq_left

/-- Format B: the byte is the low 8 bits (30_encoding.md R74). -/
theorem byte_encode_txWr (b : Byte) : (encode (.txWr b)).extractLsb' 0 8 = b := by
  rw [extractLsb'_encode _ (by decide)]
  exact BitVec.extractLsb'_append_eq_right

/-- The assigned op codes are 0x01..0x11 (30_encoding.md R75). -/
theorem op_range (i : Instr) : 0 < i.op.toNat ∧ i.op.toNat < 0x12 := by
  cases i <;> simp [Instr.op]

/-! ### Decoding an operation's word -/

theorem decodeZ_encode {i : Instr} (hop : i.op ≠ 0x09) (hop' : i.op ≠ 0x0F) : decodeZ i (encode i) = .ok i :=
  if_pos (extractLsb'_encode_eq_zero hop hop')

theorem decodeD_encode (kt ke : Bool) : decodeD (encode (.disarm kt ke)) = .ok (.disarm kt ke) := by
  revert kt ke; decide

theorem decodeB_encode (b : Byte) : decodeB (encode (.txWr b)) = .ok (.txWr b) := by
  rw [decodeB, byte_encode_txWr]
  exact if_pos (extractLsb'_encode_txWr b)

/-- The op field of an operation's word picks its format, which gives the operands back (30_encoding.md R74, R79). -/
theorem decode_encode (i : Instr) : decode (encode i) = .ok i := by
  rw [decode, opField_encode]
  cases i
  case disarm kt ke => exact decodeD_encode kt ke
  case txWr b => exact decodeB_encode b
  all_goals exact decodeZ_encode (by decide) (by decide)

/-- Settles O2: no bit of an operand is lost. -/
theorem decodeEncodeRoundTrip : Obligations.DecodeEncodeRoundTrip := decode_encode

/-- Settles O3: each format of the decoder fixes every bit of the word. -/
theorem encodeDecodeRoundTrip : Obligations.EncodeDecodeRoundTrip := fun _ _ => encode_of_decode

/-- Settles O1: the worked words are closed. -/
theorem workedWordsDecode : Obligations.WorkedWordsDecode := by
  unfold Obligations.WorkedWordsDecode
  decide

/-! ### The operation map -/

/-- The family of Laws/PerInstr.lean, for every operation. -/
theorem opcodeRow_statement : ∀ i : Instr, Laws.OpcodeRow.Statement i
  | .reset => Laws.OpcodeRow.reset
  | .clk => Laws.OpcodeRow.clk
  | .edge => Laws.OpcodeRow.edge
  | .btn => Laws.OpcodeRow.btn
  | .baud => Laws.OpcodeRow.baud
  | .tickSvc => Laws.OpcodeRow.tickSvc
  | .edgeSvc => Laws.OpcodeRow.edgeSvc
  | .arm => Laws.OpcodeRow.arm
  | .disarm kt ke => Laws.OpcodeRow.disarm kt ke
  | .clear => Laws.OpcodeRow.clear
  | .rdWt => Laws.OpcodeRow.rdWt
  | .rdLow => Laws.OpcodeRow.rdLow
  | .rdHigh => Laws.OpcodeRow.rdHigh
  | .rdTxrdy => Laws.OpcodeRow.rdTxrdy
  | .txWr b => Laws.OpcodeRow.txWr b
  | .ledOn => Laws.OpcodeRow.ledOn
  | .ledOff => Laws.OpcodeRow.ledOff

/-- Exactly one row selects an operation's word, and it has the operation's mnemonic and issuers (30_encoding.md
R75). -/
theorem existsUnique_row_encode (i : Instr) :
    ∃ r, (∀ r', r' ∈ opcodeMap ∧ encode i &&& r'.mask = r'.pattern ↔ r' = r) ∧ r.mnemonic = i.mnemonic ∧
      r.issuers = i.issuers := by
  obtain ⟨r, hr, hf⟩ := List.map_eq_singleton_iff.mp (opcodeRow_statement i)
  obtain ⟨hmnemonic, hissuers⟩ := Prod.mk.inj hf
  refine ⟨r, fun r' => ?_, hmnemonic, hissuers⟩
  rw [← List.mem_singleton (b := r), ← hr, List.mem_filter, OpcodeRow.selects, decide_eq_true_eq]

/-- A field that the mask covers is the pattern's (30_encoding.md R75). -/
theorem extractLsb'_of_masked {w mask pattern : Word} (h : w &&& mask = pattern) {k n : Nat}
    (hm : mask.extractLsb' k n = BitVec.allOnes n) : w.extractLsb' k n = pattern.extractLsb' k n := by
  rw [← h, BitVec.extractLsb'_and, hm, BitVec.and_allOnes]

/-- The masks by format: Z fixes the whole word, to one that decodes; D leaves the draws free and B the byte
(30_encoding.md R75). -/
theorem opcodeMap_formats : ∀ r ∈ opcodeMap,
    (r.mask = 0xFFFF ∧ (decode r.pattern).toBool = true) ∨ (r.mask = 0xFFFC ∧ r.pattern = 0x4800) ∨
      (r.mask = 0xFF00 ∧ r.pattern = 0x7800) := by
  decide

/-- A word that a row selects decodes: the mask covers every bit its format checks (30_encoding.md R75). -/
theorem decode_of_row {r : OpcodeRow} {w : Word} (hr : r ∈ opcodeMap) (h : w &&& r.mask = r.pattern) :
    ∃ i, decode w = .ok i := by
  rcases opcodeMap_formats r hr with ⟨hm, hd⟩ | ⟨hm, hp⟩ | ⟨hm, hp⟩
  · have hw : w = r.pattern := by
      rw [← h, hm]
      exact BitVec.and_allOnes.symm
    rw [hw]
    cases hi : decode r.pattern with
    | ok i => exact ⟨i, rfl⟩
    | error e => rw [hi] at hd; cases hd
  · rw [hm, hp] at h
    have hop : opField w = 0x09 := extractLsb'_of_masked h (by decide)
    have hz : w.extractLsb' 2 9 = 0 := extractLsb'_of_masked h (by decide)
    exact ⟨_, by rw [decode, hop]; exact if_pos hz⟩
  · rw [hm, hp] at h
    have hop : opField w = 0x0F := extractLsb'_of_masked h (by decide)
    have hz : w.extractLsb' 8 3 = 0 := extractLsb'_of_masked h (by decide)
    exact ⟨_, by rw [decode, hop]; exact if_pos hz⟩

/-- An agent may issue an operation exactly if the operation lists it (30_encoding.md R78). -/
theorem wellIssued_iff {a : Agent} {i : Instr} : wellIssued a i = true ↔ a ∈ i.issuers := List.contains_iff_mem

/-- Settles O4: a selected word is an operation's, and the row is the one that operation has. -/
theorem opcodeMapSelectsOperation : Obligations.OpcodeMapSelectsOperation := by
  unfold Obligations.OpcodeMapSelectsOperation
  intro w r hr h
  obtain ⟨i, hd⟩ := decode_of_row hr h
  obtain rfl := encode_of_decode hd
  obtain ⟨r', hrows, hmnemonic, hissuers⟩ := existsUnique_row_encode i
  obtain rfl := (hrows r).mp ⟨hr, h⟩
  exact ⟨i, hd, hmnemonic.symm, fun a => hissuers ▸ wellIssued_iff⟩

/-- Settles O5: a word with a row is an operation's and has that operation's one row; a word that decodes has a row. -/
theorem wordMatchesOneRowOrIsReserved : Obligations.WordMatchesOneRowOrIsReserved := by
  unfold Obligations.WordMatchesOneRowOrIsReserved
  intro w
  constructor
  · intro r r' hr hr' h h'
    obtain ⟨i, hd⟩ := decode_of_row hr h
    obtain rfl := encode_of_decode hd
    obtain ⟨_, hrows, _⟩ := existsUnique_row_encode i
    exact ((hrows r).mp ⟨hr, h⟩).trans ((hrows r').mp ⟨hr', h'⟩).symm
  · intro hnone
    cases hd : decode w with
    | error e => exact ⟨e, rfl⟩
    | ok i =>
      obtain rfl := encode_of_decode hd
      obtain ⟨r, hrows, _⟩ := existsUnique_row_encode i
      obtain ⟨hr, h⟩ := (hrows r).mpr rfl
      exact absurd h (hnone r hr)

/-! ### Refused words -/

/-- Whoever issues it, a word that names no operation of the issuer sets REFUSED only (60_exceptions.md R202). -/
theorem runTurn_issue_refused {a : Agent} {w : Word} (s : State)
    (h : ∀ i, decode w = .ok i → wellIssued a i = false) : runTurn (.issue a w) s = .next s.markRefused := by
  rw [runTurn, issueWord]
  cases hd : decode w with
  | error e => rfl
  | ok i => simp [h i hd]

/-- Settles O6: no operation's word is in one of the three classes. -/
theorem reservedWordsAreRefused : Obligations.ReservedWordsAreRefused := by
  unfold Obligations.ReservedWordsAreRefused
  intro a w s hw
  refine runTurn_issue_refused s fun i hd => ?_
  obtain rfl := encode_of_decode hd
  have hop : (encode i).extractLsb' 11 5 = i.op := opField_encode i
  rw [hop] at hw
  obtain ⟨hpos, hlt⟩ := op_range i
  rcases hw with h0 | h12 | ⟨hopD, hopB, hz⟩ | ⟨hopD, hz⟩ | ⟨hopB, hz⟩
  · exact absurd hpos (by simp [h0])
  · exact absurd h12 (Nat.not_le.mpr hlt)
  · exact absurd (extractLsb'_encode_eq_zero hopD hopB) hz
  · cases i <;> cases hopD
    exact absurd (extractLsb'_encode_disarm _ _) hz
  · cases i <;> cases hopB
    exact absurd (extractLsb'_encode_txWr _) hz

/-- The issuers by mnemonic: ENV, SVC, and a host context for every other (30_encoding.md R75). -/
theorem issuers_by_mnemonic (i : Instr) : i.issuers =
    if i.mnemonic ∈ ["RESET", "CLK", "EDGE", "BTN", "BAUD"] then [.env]
    else if i.mnemonic ∈ ["TICK_SVC", "EDGE_SVC"] then [.svc] else [.main, .bctx] := by
  cases i <;> rfl

/-- Settles O7: the agent is not among the operation's issuers. -/
theorem wrongIssuerIsRefused : Obligations.WrongIssuerIsRefused := by
  unfold Obligations.WrongIssuerIsRefused
  intro a i s h
  have hnot : a ∉ i.issuers := by
    rw [issuers_by_mnemonic]
    rcases h with ⟨henv, ha⟩ | ⟨hsvc, ha⟩ | ⟨hhost, ha⟩
    · simpa [henv] using ha
    · obtain hm | hm : i.mnemonic = "TICK_SVC" ∨ i.mnemonic = "EDGE_SVC" := by simpa using hsvc
      all_goals simpa [hm] using ha
    · simp only [List.mem_cons, List.not_mem_nil, or_false, not_or] at hhost
      simp [hhost, ha]
  refine runTurn_issue_refused s fun j hd => ?_
  cases (decode_encode i).symm.trans hd
  exact Bool.eq_false_iff.mpr (mt wellIssued_iff.mp hnot)

/-! ### The line image of a character -/

@[simp] theorem lineLevels_append (es fs : List Event) : lineLevels (es ++ fs) = lineLevels es ++ lineLevels fs := by
  induction es with
  | nil => rfl
  | cons e es ih => cases e <;> simp [lineLevels, ih]

@[simp] theorem lineLevels_map_line (bs : List Bool) : lineLevels (bs.map .line) = bs := by
  induction bs with
  | nil => rfl
  | cons b bs ih => simp [lineLevels, ih]

/-- Bits 1 to 8 of the shift register's image are the data bits (30_encoding.md R71). -/
theorem charOf_data (d : Byte) {k : Nat} (hk : k < 8) : (charOf d).getLsbD (1 + k) = d.getLsbD k := by
  have happ : (charOf d).getLsbD (1 + k) = ((1#1 ++ d) ++ 0#1).getLsbD (1 + k) := rfl
  rw [happ, BitVec.getLsbD_append, BitVec.getLsbD_append]
  simp [hk]

/-- The ten levels are the start bit and then bits 1 to 9 of the shift register's image (30_encoding.md R71). -/
theorem charLevels_eq (d : Byte) : charLevels d = false :: (List.range' 1 9).map (charOf d).getLsbD := by
  have hdata : (List.range' 1 8).map (charOf d).getLsbD = (List.range 8).map d.getLsbD := by
    rw [List.range'_eq_map_range, List.map_map]
    exact List.map_congr_left fun k hk => charOf_data d (List.mem_range.mp hk)
  rw [List.range'_1_concat, List.map_append, hdata]
  simp [charLevels, List.range_succ]

/-- A sequence goes on from where its first operation leads. -/
theorem execAll_cons_of_next {i : Instr} {is : List Instr} {s t : State} (h : exec i s = .next t) :
    execAll (i :: is) s = execAll is t := by
  rw [execAll, h, andThen_next]

theorem execAll_replicate_baud_succ (n : Nat) (s : State) : execAll (List.replicate (n + 1) .baud) s =
    execAll (List.replicate n .baud) (driveLine (startChar (endBit s))) :=
  execAll_cons_of_next rfl

/-- BAUDs inside a character put its next bits on the line and leave the rest (41_frame_transmitter.md R142). -/
theorem execAll_baud_inside (n : Nat) {s : State} (hb : s.txBusy = true) (hn : s.txIdx.toNat + n ≤ 9) :
    ∃ d, execAll (List.replicate n .baud) s = .next
      { s with
        txIdx := s.txIdx + BitVec.ofNat 4 n
        txd := d
        trace := s.trace ++ ((List.range' (s.txIdx.toNat + 1) n).map s.txShift.getLsbD).map .line } := by
  induction n generalizing s with
  | zero => exact ⟨s.txd, by simp [execAll]⟩
  | succ n ih =>
    have hi : s.txIdx ≠ 9 := fun h => by simp [h] at hn
    have hidx : (s.txIdx + 1).toNat = s.txIdx.toNat + 1 := by bv_omega
    have hsum : s.txIdx + 1 + BitVec.ofNat 4 n = s.txIdx + BitVec.ofNat 4 (n + 1) := by bv_omega
    have hbaud := baud_next hb hi
    obtain ⟨d, hrun⟩ := ih (s := driveLine (startChar (endBit s))) (by simp [hbaud, hb]) (by rw [hbaud, hidx]; omega)
    refine ⟨d, ?_⟩
    rw [execAll_replicate_baud_succ, hrun, hbaud, hidx, hsum]
    simp [List.range'_succ]

/-- Ten BAUDs on a shifter that has no bit left to send put the waiting byte's character on the line; the shifter is
then at its stop bit (30_encoding.md R71, 41_frame_transmitter.md R142). -/
theorem execAll_baud_character {s : State} (h : s.txBusy = false ∨ s.txIdx = 9) (hf : s.txFull = true) :
    ∃ d, execAll (List.replicate 10 .baud) s = .next
      { s with
        txShift := charOf s.txBuf
        txFull := false
        txBusy := true
        txIdx := 9
        txd := d
        trace := s.trace ++ (charLevels s.txBuf).map .line } := by
  have hbaud := baud_start h hf
  obtain ⟨d, hrun⟩ := execAll_baud_inside 9 (s := driveLine (startChar (endBit s))) (by rw [hbaud]) (by simp [hbaud])
  refine ⟨d, ?_⟩
  rw [execAll_replicate_baud_succ, hrun, hbaud]
  simp [charLevels_eq]

/-- TX_WR into an empty buffer stores the byte (41_frame_transmitter.md R141). -/
theorem exec_txWr_empty (b : Byte) {s : State} (hf : s.txFull = false) :
    exec (.txWr b) s = .next { s with txBuf := b, txFull := true } := by
  simp [exec, execTxWr, hf]

/-- Settles O57: the byte waits in the buffer, ten BAUDs send its character, and the next one ends the stop bit. -/
theorem characterLineImage : Obligations.CharacterLineImage := by
  unfold Obligations.CharacterLineImage
  intro b s hb hf
  obtain ⟨d, hrun⟩ := execAll_baud_character (s := { s with txBuf := b, txFull := true }) (.inl hb) rfl
  have hsend := (execAll_cons_of_next (exec_txWr_empty b hf)).trans hrun
  refine ⟨_, _, hsend, ?_, congrArg Host.Outcome.next (baud_end rfl rfl rfl), rfl, rfl, ?_⟩
  · rw [lineLevels_append, lineLevels_map_line, charLevels]
  · rw [lineLevels_append, lineLevels, lineLevels]

end Sys2Proof.Machine

/-!
PROOFS. The statements of 40_counter_timer.md: what each operation of the counter unit does, the laws over sequences of
its operations, and that no outcome of a step depends on CAPBASE.
-/

namespace Sys2Proof.Machine

/-! ### The operations of the counter unit -/

/-- An operation with one issuer is well-formed from that agent only (30_encoding.md R75, R78). -/
theorem wellIssued_iff_eq {i : Instr} {b : Agent} (h : i.issuers = [b]) (a : Agent) :
    wellIssued a i = true ↔ a = b := by
  rw [wellIssued_iff, h, List.mem_singleton]

/-- A host operation is well-formed from MAIN and from BCTX only (30_encoding.md R75, R78). -/
theorem wellIssued_iff_host {i : Instr} (h : i.issuers = [.main, .bctx]) (a : Agent) :
    wellIssued a i = true ↔ a = .main ∨ a = .bctx := by
  rw [wellIssued_iff, h, List.mem_pair]

/-- An edge while disarmed changes nothing (40_counter_timer.md R101). -/
theorem exec_edge_disarmed {s : State} (ha : s.armed = false) : exec .edge s = .next s := by
  simp [exec, execEdge, ha]

/-- An edge while armed is latched in EDGEPEND (40_counter_timer.md R101). -/
theorem exec_edge_armed {s : State} (ha : s.armed = true) :
    exec .edge s = .next (s.latch s.edgePend .lostEdge fun s => { s with edgePend := true }) := by
  simp [exec, execEdge, ha]

/-- An edge that finds EDGEPEND clear sets it (40_counter_timer.md R101). -/
theorem exec_edge_sets {s : State} (ha : s.armed = true) (he : s.edgePend = false) :
    exec .edge s = .next { s with edgePend := true } := by
  rw [exec_edge_armed ha, he, State.latch_false]

/-- Settles O11: at 9999 the time base wraps and its tick is latched, elsewhere it counts. -/
theorem clkAdvancesArmedTimers : Obligations.ClkAdvancesArmedTimers := by
  unfold Obligations.ClkAdvancesArmedTimers
  have hend : (9999 : Word).toNat = Config.params.tickPeriod - 1 := rfl
  refine ⟨by decide, wellIssued_iff_eq rfl, fun s => ?_, fun p s hp ha hw => ?_⟩
  · simp only [exec, execClk]
    refine ⟨fun ha => ?_, fun ha hw => ?_, fun ha hw ht => ?_, fun ha hw ht => ?_⟩
    · rw [clkOp_disarmed _ ha]
    · rw [clkOp_counts _ ha (hend ▸ mt BitVec.eq_of_toNat_eq hw)]
    · rw [clkOp_wraps _ ha (hend ▸ congrArg BitVec.toNat hw)]
      exact congrArg Host.Outcome.next (if_neg (by simp [ht]))
    · rw [clkOp_wraps _ ha (hend ▸ congrArg BitVec.toNat hw)]
      exact congrArg Host.Outcome.next (if_pos ht)
  · rw [clkOp_wraps p ha (by simp [hw, hp]), latchTick]
    cases s.tickPend <;> simp

/-- Settles O12: while armed an edge meets EDGEPEND. -/
theorem edgeSetsPendingOrIsLost : Obligations.EdgeSetsPendingOrIsLost := by
  unfold Obligations.EdgeSetsPendingOrIsLost
  refine ⟨by decide, wellIssued_iff_eq rfl, fun s => ⟨exec_edge_disarmed, exec_edge_sets, fun ha he => ?_⟩⟩
  exact (exec_edge_armed ha).trans (congrArg Host.Outcome.next (if_pos he))

/-- Settles O13: TICK_SVC steps exactly while its flag is pending. -/
theorem tickSvcCountsWindowTick : Obligations.TickSvcCountsWindowTick := by
  unfold Obligations.TickSvcCountsWindowTick
  refine ⟨by decide, wellIssued_iff_eq rfl, fun s => ⟨fun hp => ?_, fun hp t h => ?_⟩⟩
  · exact execTickSvc_eq_next.mpr ⟨hp, rfl⟩
  · obtain ⟨hp', _⟩ := execTickSvc_eq_next.mp h
    exact absurd (hp.symm.trans hp') nofun

/-- Settles O14: EDGE_SVC steps exactly while its flag is pending, and carries where `LOW + 1` is the wrap value. -/
theorem edgeSvcCountsWithCarry : Obligations.EdgeSvcCountsWithCarry := by
  unfold Obligations.EdgeSvcCountsWithCarry
  refine ⟨by decide, wellIssued_iff_eq rfl, fun s => ⟨fun hp hl => ?_, fun hp hl => ?_, fun hp t h => ?_⟩,
    fun s => ⟨fun hl => ?_, fun hl => ?_⟩⟩
  · exact execEdgeSvc_eq_next.mpr ⟨hp, (edgeSvcOp_carry _ (by rw [hl]; rfl)).symm⟩
  · have hne : (s.low + 1).toNat ≠ Config.params.lowWrap := by
      change (s.low + 1).toNat ≠ 250
      bv_omega
    exact execEdgeSvc_eq_next.mpr ⟨hp, (edgeSvcOp_count _ hne).symm⟩
  · obtain ⟨hp', _⟩ := execEdgeSvc_eq_next.mp h
    exact absurd (hp.symm.trans hp') nofun
  · rw [edgeSvcOp_count _ (by rw [hl]; decide), hl]; rfl
  · exact edgeSvcOp_carry _ (by rw [hl]; rfl)

/-- Settles O15: ARM writes ARMED, which it finds set while armed. -/
theorem armStartsBothTimers : Obligations.ArmStartsBothTimers := by
  unfold Obligations.ArmStartsBothTimers
  refine ⟨by decide, wellIssued_iff_host rfl, fun s => ⟨rfl, fun ha => ?_⟩⟩
  rw [exec, execArm, ← ha]

/-- A flag survives DISARM exactly if it was pending and its draw is 1 (40_counter_timer.md R106). -/
theorem keptPending_eq_and (pending draw : Bool) : keptPending pending draw = (pending && draw) := by
  cases draw <;> simp

/-- Settles O16: each flag is kept by its draw. -/
theorem disarmStopsTimersAndDrawsFlags : Obligations.DisarmStopsTimersAndDrawsFlags := by
  unfold Obligations.DisarmStopsTimersAndDrawsFlags
  refine ⟨by decide, fun a kt ke => wellIssued_iff_host rfl a, fun kt ke s => ?_⟩
  rw [exec, execDisarm, keptPending_eq_and, keptPending_eq_and]

/-- Settles O17: CLEAR is one write of the five registers. -/
theorem clearZeroesCountersAndTimeBases : Obligations.ClearZeroesCountersAndTimeBases := by
  unfold Obligations.ClearZeroesCountersAndTimeBases
  exact ⟨by decide, wellIssued_iff_host rfl, fun s => rfl⟩

/-- Settles O18: each read answers with its register. -/
theorem counterReadsReturnWholeRegister : Obligations.CounterReadsReturnWholeRegister := by
  unfold Obligations.CounterReadsReturnWholeRegister
  exact ⟨by decide, by decide, by decide, fun s => ⟨rfl, rfl, rfl⟩⟩

/-! ### Sequences of operations -/

/-- What holds of no operations and the start state, and is kept by each further operation and its step, holds of the
whole sequence and the state it leads to. -/
theorem execAll_invariant {P : List Instr → State → Prop} {ok : Instr → Bool}
    (hstep : ∀ done i s t, ok i = true → P done s → exec i s = .next t → P (done ++ [i]) t)
    {ops : List Instr} {s t : State} (hok : ∀ i ∈ ops, ok i = true) (h0 : P [] s) (h : execAll ops s = .next t) :
    P ops t := by
  suffices ∀ done, P done s → P (done ++ ops) t from this [] h0
  intro done hd
  clear h0
  induction ops generalizing done s with
  | nil => cases h; simpa using hd
  | cons i is ih =>
    obtain ⟨u, hi, his⟩ := andThen_eq_next.mp h
    obtain ⟨hoki, hokis⟩ := List.forall_mem_cons.mp hok
    simpa using ih hokis his _ (hstep _ _ _ _ hoki hd hi)

/-- An operation that does not touch the window zeroes no count. -/
theorem keepsCounts_of_keepsWindow {i : Instr} : i.keepsWindow = true → i.keepsCounts = true := by
  cases i <;> simp [Instr.keepsWindow, Instr.keepsCounts]

/-! ### The accumulator -/

/-- LOW and HIGH hold the count `n`, HIGH modulo 2^16 (10_state.md R25, 40_counter_timer.md R111). -/
def State.CountsEdges (n : Nat) (s : State) : Prop := s.low.toNat = n % 250 ∧ s.high.toNat = n / 250 % 65536

/-- EDGE_SVC counts one edge (40_counter_timer.md R104). -/
theorem execEdgeSvc_countsEdges {n : Nat} {s t : State} (hs : s.CountsEdges n) (h : execEdgeSvc s = .next t) :
    t.CountsEdges (n + 1) := by
  obtain ⟨hlow, hhigh⟩ := hs
  rcases execEdgeSvc_cases h with ⟨_, ⟨hl, rfl⟩ | ⟨hl, rfl⟩⟩ <;> simp only [State.CountsEdges]
  · constructor <;> bv_omega
  · constructor <;> bv_omega

/-- Below 16 384 000 the count is TotalEdges. -/
theorem State.CountsEdges.totalEdges {n : Nat} {s : State} (hs : s.CountsEdges n) (hn : n < 16384000) :
    s.totalEdges = n := by
  obtain ⟨hlow, hhigh⟩ := hs
  rw [State.totalEdges, hlow, hhigh]
  omega

/-- No other operation touches the accumulator, CLEAR and RESET apart (10_state.md R25). -/
theorem exec_countsEdges {n : Nat} {i : Instr} {s t : State} (hi : i.keepsCounts = true) (hs : s.CountsEdges n)
    (h : exec i s = .next t) : t.CountsEdges (n + [i].count .edgeSvc) := by
  obtain ⟨_, hacc, _⟩ := onlyListedOperationsWriteAnElement i s t h
  cases i
  case edgeSvc => exact execEdgeSvc_countsEdges hs h
  case reset | clear => cases hi
  all_goals
    obtain ⟨hl, hh⟩ := hacc (by simp [Instr.mnemonic])
    simpa [State.CountsEdges, hl, hh] using hs

/-- The accumulator counts the EDGE_SVCs (40_counter_timer.md R111). -/
theorem execAll_countsEdges {ops : List Instr} {s t : State} (hl : s.low = 0) (hh : s.high = 0)
    (hops : ∀ i ∈ ops, i.keepsCounts = true) (h : execAll ops s = .next t) : t.CountsEdges (ops.count .edgeSvc) := by
  refine execAll_invariant (P := fun done u => u.CountsEdges (done.count .edgeSvc)) (fun done i u v hi hu hv => ?_) hops
    (by simp [State.CountsEdges, hl, hh]) h
  rw [List.count_append]
  exact exec_countsEdges hi hu hv

/-- Settles O53: LOW and HIGH hold the count of EDGE_SVCs. -/
theorem rolloverLaw : Obligations.RolloverLaw := by
  unfold Obligations.RolloverLaw
  intro ops s t hl hh hops h
  have hcount := execAll_countsEdges hl hh hops h
  exact ⟨hcount.1, hcount.2, hcount.totalEdges⟩

/-! ### Serviced edges -/

/-- The accumulator update ends the pending edge and leaves ARMED and the trace (40_counter_timer.md R104). -/
theorem edgeSvcOp_frame (p : Params) (s : State) : (edgeSvcOp p s).armed = s.armed ∧
    (edgeSvcOp p s).edgePend = false ∧ (edgeSvcOp p s).trace = s.trace := by
  unfold edgeSvcOp
  split <;> exact ⟨rfl, rfl, rfl⟩

/-- While armed, every edge serviced at once takes both its steps and none is lost (40_counter_timer.md R101, R104). -/
theorem execAll_serviced_edges (n : Nat) {s : State} (ha : s.armed = true) (he : s.edgePend = false) :
    ∃ t, execAll (List.replicate n [Instr.edge, .edgeSvc]).flatten s = .next t ∧ t.edgePend = false ∧
      t.trace = s.trace := by
  induction n generalizing s with
  | zero => exact ⟨s, rfl, he, rfl⟩
  | succ n ih =>
    obtain ⟨ha', he', htrace⟩ := edgeSvcOp_frame Config.params { s with edgePend := true }
    obtain ⟨t, hrun, het, htt⟩ := ih (ha'.trans ha) he'
    refine ⟨t, ?_, het, htt.trans htrace⟩
    rw [List.replicate_succ, List.flatten_cons, List.cons_append, List.singleton_append,
      execAll_cons_of_next (exec_edge_sets ha he), ← hrun]
    exact execAll_cons_of_next (execEdgeSvc_eq_next.mpr ⟨rfl, rfl⟩)

/-- Settles O54: every step is taken, and by the rollover law the n EDGE_SVCs are counted. -/
theorem servicedEdgesAreAllCounted : Obligations.ServicedEdgesAreAllCounted := by
  unfold Obligations.ServicedEdgesAreAllCounted
  intro n s ha he hl hh
  obtain ⟨t, hrun, het, htrace⟩ := execAll_serviced_edges n ha he
  have hops : ∀ i ∈ (List.replicate n [Instr.edge, .edgeSvc]).flatten, i.keepsCounts = true := by
    intro i hi
    obtain rfl | rfl : i = .edge ∨ i = .edgeSvc := by
      obtain ⟨pair, hpair, hi⟩ := List.mem_flatten.mp hi
      simpa [List.eq_of_mem_replicate hpair] using hi
    · rfl
    · rfl
  have hcount : (List.replicate n [Instr.edge, .edgeSvc]).flatten.count .edgeSvc = n := by simp [List.count_flatten]
  obtain ⟨hlow, hhigh⟩ := hcount ▸ execAll_countsEdges hl hh hops hrun
  exact ⟨t, hrun, hlow, hhigh, het, htrace⟩

/-! ### Lost events -/

/-- An operation adds to the trace, LOST_TICK only if it is CLK and LOST_EDGE only if it is EDGE
(40_counter_timer.md R100, R101). -/
theorem exec_trace {i : Instr} {s t : State} (h : exec i s = .next t) :
    ∃ es, t.trace = s.trace ++ es ∧ (.lostTick ∈ es → i = .clk) ∧ (.lostEdge ∈ es → i = .edge) := by
  cases i <;> simp only [exec] at h
  case clk => rcases execClk_cases h with ⟨_, rfl⟩ | ⟨_, _, rfl⟩ | ⟨_, _, _, rfl⟩ | ⟨_, _, _, rfl⟩ <;> simp
  case edge => rcases execEdge_cases h with ⟨_, rfl⟩ | ⟨_, _, rfl⟩ | ⟨_, _, rfl⟩ <;> simp
  case btn => rcases execBtn_cases h with ⟨_, rfl⟩ | ⟨_, rfl⟩ <;> simp
  case baud => rcases execBaud_cases h with ⟨_, _, rfl⟩ | ⟨_, _, rfl⟩ | ⟨_, _, rfl⟩ | ⟨_, _, _, rfl⟩ <;> simp
  case tickSvc => obtain ⟨_, rfl⟩ := execTickSvc_eq_next.mp h; simp
  case edgeSvc => rcases execEdgeSvc_cases h with ⟨_, ⟨_, rfl⟩ | ⟨_, rfl⟩⟩ <;> simp
  case txWr => rcases execTxWr_cases h with ⟨_, rfl⟩ | ⟨_, rfl⟩ <;> simp
  all_goals (cases h; simp [setLed])

theorem exec_count_lostTick {i : Instr} {s t : State} (h : exec i s = .next t) (hi : i ≠ .clk) :
    t.trace.count .lostTick = s.trace.count .lostTick := by
  obtain ⟨es, htrace, htick, _⟩ := exec_trace h
  rw [htrace, List.count_append, List.count_eq_zero.mpr (mt htick hi), Nat.add_zero]

theorem exec_count_lostEdge {i : Instr} {s t : State} (h : exec i s = .next t) (hi : i ≠ .edge) :
    t.trace.count .lostEdge = s.trace.count .lostEdge := by
  obtain ⟨es, htrace, _, hedge⟩ := exec_trace h
  rw [htrace, List.count_append, List.count_eq_zero.mpr (mt hedge hi), Nat.add_zero]

/-! ### Window-ticks -/

/-- The account of window-ticks while armed, after `clks` CLKs and `svcs` TICK_SVCs from a trace with `lost` lost ticks:
the time base counts the CLKs, and each of its wraps is serviced, pending or lost (40_counter_timer.md R113). -/
structure TickAccount (clks svcs lost : Nat) (s : State) : Prop where
  armed : s.armed = true
  winBase : s.winBase.toNat = clks % 10000
  wt : s.wt.toNat = svcs % 65536
  ticks : svcs + s.tickPend.toNat + s.trace.count .lostTick = clks / 10000 + lost
  lostBefore : lost ≤ s.trace.count .lostTick

section TickAccount

variable {clks svcs lost : Nat} {s t : State} (hs : TickAccount clks svcs lost s)

include hs

/-- The account speaks of ARMED, WINBASE, WT, TICKPEND and the lost ticks only. -/
theorem TickAccount.of_eq (harmed : t.armed = s.armed) (hwin : t.winBase = s.winBase) (hwt : t.wt = s.wt)
    (hpend : t.tickPend = s.tickPend) (hlost : t.trace.count .lostTick = s.trace.count .lostTick) :
    TickAccount clks svcs lost t := by
  obtain ⟨armed, winBase, wt, ticks, lostBefore⟩ := hs
  constructor <;> simpa only [harmed, hwin, hwt, hpend, hlost]

/-- A CLK counts, and at the wrap its tick is pending or lost (40_counter_timer.md R100). -/
theorem TickAccount.clk (h : execClk s = .next t) : TickAccount (clks + 1) svcs lost t := by
  have hwin := hs.winBase
  have hticks := hs.ticks
  rcases execClk_cases h with ⟨ha, _⟩ | ⟨_, hw, rfl⟩ | ⟨_, hw, hp, rfl⟩ | ⟨_, hw, hp, rfl⟩
  · exact absurd (ha.symm.trans hs.armed) nofun
  · exact { hs with winBase := by bv_omega, ticks := by dsimp only; omega }
  · rw [hp, Bool.toNat_false] at hticks
    exact { hs with winBase := by bv_omega, ticks := by dsimp only [Bool.toNat_true]; omega }
  · have hcount : (s.trace ++ [Event.lostTick]).count .lostTick = s.trace.count .lostTick + 1 := by simp
    exact { hs with
      winBase := by bv_omega
      ticks := by dsimp only; omega
      lostBefore := hcount ▸ Nat.le_succ_of_le hs.lostBefore }

/-- A TICK_SVC takes the pending tick into WT (40_counter_timer.md R103). -/
theorem TickAccount.tickSvc (h : execTickSvc s = .next t) : TickAccount clks (svcs + 1) lost t := by
  have hwt := hs.wt
  have hticks := hs.ticks
  obtain ⟨hp, rfl⟩ := execTickSvc_eq_next.mp h
  rw [hp, Bool.toNat_true] at hticks
  exact { hs with wt := by bv_omega, ticks := by dsimp only [Bool.toNat_false]; omega }

/-- Every operation of a window keeps the account; those that write nothing of it by the writers' table. -/
theorem TickAccount.exec {i : Instr} (hi : i.keepsWindow = true) (h : exec i s = .next t) :
    TickAccount (clks + [i].count .clk) (svcs + [i].count .tickSvc) lost t := by
  obtain ⟨hwt, _, harmed, hwin, hpend, _⟩ := onlyListedOperationsWriteAnElement i s t h
  cases i
  case clk => exact hs.clk h
  case tickSvc => exact hs.tickSvc h
  case reset | clear | arm | disarm => cases hi
  all_goals
    exact hs.of_eq (harmed (by simp [Instr.mnemonic])) (hwin (by simp [Instr.mnemonic])).1
      (hwt (by simp [Instr.mnemonic])) (hpend (by simp [Instr.mnemonic])) (exec_count_lostTick h nofun)

end TickAccount

theorem execAll_tickAccount {ops : List Instr} {s t : State} (hs : TickAccount 0 0 (s.trace.count .lostTick) s)
    (hops : ∀ i ∈ ops, i.keepsWindow = true) (h : execAll ops s = .next t) :
    TickAccount (ops.count .clk) (ops.count .tickSvc) (s.trace.count .lostTick) t := by
  refine execAll_invariant
    (P := fun done u => TickAccount (done.count Instr.clk) (done.count Instr.tickSvc) (s.trace.count Event.lostTick) u)
    (fun done i u v hi hu hv => ?_) hops hs h
  rw [List.count_append, List.count_append]
  exact hu.exec hi hv

/-- Settles O55: by the account of window-ticks; a serviced tick is one of the wraps, so 25 need 250 000 CLKs. -/
theorem tickTimingLaw : Obligations.TickTimingLaw := by
  unfold Obligations.TickTimingLaw
  intro ops s t ha hwin hwt hp hops h
  have hstart : TickAccount 0 0 (s.trace.count .lostTick) s :=
    ⟨ha, by simp [hwin], by simp [hwt], by simp [hp], le_rfl⟩
  obtain ⟨harmed, hwin', hwt', hticks, hlost⟩ := execAll_tickAccount hstart hops h
  exact ⟨harmed, hwin', hwt', hticks, fun h25 => by omega⟩

/-! ### Edges -/

/-- The account of edges while armed, after `edges` EDGEs and `svcs` EDGE_SVCs from a trace with `lost` lost edges: each
edge is serviced, pending or lost (40_counter_timer.md R112). -/
structure EdgeAccount (edges svcs lost : Nat) (s : State) : Prop where
  armed : s.armed = true
  edges : edges + lost = svcs + s.trace.count .lostEdge + s.edgePend.toNat

section EdgeAccount

variable {edges svcs lost : Nat} {s t : State} (hs : EdgeAccount edges svcs lost s)

include hs

/-- The account speaks of ARMED, EDGEPEND and the lost edges only. -/
theorem EdgeAccount.of_eq (harmed : t.armed = s.armed) (hpend : t.edgePend = s.edgePend)
    (hlost : t.trace.count .lostEdge = s.trace.count .lostEdge) : EdgeAccount edges svcs lost t := by
  obtain ⟨armed, edges⟩ := hs
  constructor <;> simpa only [harmed, hpend, hlost]

/-- An EDGE becomes pending or is lost (40_counter_timer.md R101). -/
theorem EdgeAccount.edge (h : execEdge s = .next t) : EdgeAccount (edges + 1) svcs lost t := by
  have hedges := hs.edges
  rcases execEdge_cases h with ⟨ha, _⟩ | ⟨_, hp, rfl⟩ | ⟨_, hp, rfl⟩
  · exact absurd (ha.symm.trans hs.armed) nofun
  · rw [hp, Bool.toNat_false] at hedges
    exact { hs with edges := by dsimp only [Bool.toNat_true]; omega }
  · have hcount : (s.trace ++ [Event.lostEdge]).count .lostEdge = s.trace.count .lostEdge + 1 := by simp
    exact { hs with edges := by dsimp only; omega }

/-- An EDGE_SVC takes the pending edge (40_counter_timer.md R104). -/
theorem EdgeAccount.edgeSvc (h : execEdgeSvc s = .next t) : EdgeAccount edges (svcs + 1) lost t := by
  obtain ⟨harmed, hedges⟩ := hs
  obtain ⟨hp, rfl⟩ := execEdgeSvc_eq_next.mp h
  obtain ⟨ha, he, htrace⟩ := edgeSvcOp_frame Config.params s
  rw [hp, Bool.toNat_true] at hedges
  exact ⟨ha.trans harmed, by rw [htrace, he, Bool.toNat_false]; omega⟩

/-- Every operation of a window keeps the account; those that write nothing of it by the writers' table. -/
theorem EdgeAccount.exec {i : Instr} (hi : i.keepsWindow = true) (h : exec i s = .next t) :
    EdgeAccount (edges + [i].count .edge) (svcs + [i].count .edgeSvc) lost t := by
  obtain ⟨_, _, harmed, _, _, hpend, _⟩ := onlyListedOperationsWriteAnElement i s t h
  cases i
  case edge => exact hs.edge h
  case edgeSvc => exact hs.edgeSvc h
  case reset | clear | arm | disarm => cases hi
  all_goals
    exact hs.of_eq (harmed (by simp [Instr.mnemonic])) (hpend (by simp [Instr.mnemonic]))
      (exec_count_lostEdge h nofun)

end EdgeAccount

theorem execAll_edgeAccount {ops : List Instr} {s t : State} (hs : EdgeAccount 0 0 (s.trace.count .lostEdge) s)
    (hops : ∀ i ∈ ops, i.keepsWindow = true) (h : execAll ops s = .next t) :
    EdgeAccount (ops.count .edge) (ops.count .edgeSvc) (s.trace.count .lostEdge) t := by
  refine execAll_invariant
    (P := fun done u => EdgeAccount (done.count Instr.edge) (done.count Instr.edgeSvc) (s.trace.count Event.lostEdge) u)
    (fun done i u v hi hu hv => ?_) hops hs h
  rw [List.count_append, List.count_append]
  exact hu.exec hi hv

/-- A pending edge is kept by DISARM or dropped by it (40_counter_timer.md R106). -/
theorem toNat_pending_eq_kept_add_dropped (pending draw : Bool) :
    pending.toNat = (keptPending pending draw).toNat + (pending && !draw).toNat := by
  cases draw <;> simp

/-- Settles O56: the account of edges before DISARM, and what DISARM's draw does with a pending one. -/
theorem edgeAccounting : Obligations.EdgeAccounting := by
  unfold Obligations.EdgeAccounting
  intro ops s t u kt ke ha he hl hh hops h hdisarm
  cases hdisarm
  have hcount := execAll_countsEdges hl hh (fun i hi => keepsCounts_of_keepsWindow (hops i hi)) h
  obtain ⟨_, hedges⟩ := execAll_edgeAccount ⟨ha, by simp [he]⟩ hops h
  have hflag := toNat_pending_eq_kept_add_dropped t.edgePend ke
  exact ⟨by dsimp only; omega, hcount.totalEdges, rfl⟩

/-! ### Two steps that are alike -/

/-- Two outcomes of one kind: results related by `R`, or the same fault, or the same refusal. -/
inductive Alike {α : Type} (R : α → α → Prop) : Result α → Result α → Prop where
  | next {a b : α} (h : R a b) : Alike R (.next a) (.next b)
  | fault (f : Fault) : Alike R (.fault f) (.fault f)
  | refused (r : Refusal) : Alike R (.refused r) (.refused r)

section Inversion

variable {α : Type} {R : α → α → Prop} {o o' : Result α}

theorem Alike.next_right {a : α} (h : Alike R o o') (ho : o = .next a) : ∃ b, o' = .next b ∧ R a b := by
  cases h with
  | next h => cases ho; exact ⟨_, rfl, h⟩
  | fault | refused => cases ho

theorem Alike.fault_right {f : Fault} (h : Alike R o o') (ho : o = .fault f) : o' = .fault f := by
  cases h with
  | fault => exact ho
  | next | refused => cases ho

theorem Alike.refused_right {r : Refusal} (h : Alike R o o') (ho : o = .refused r) : o' = .refused r := by
  cases h with
  | refused => exact ho
  | next | fault => cases ho

end Inversion

/-- Chained steps are alike if their parts are. -/
theorem Alike.andThen {α β : Type} {R : α → α → Prop} {S : β → β → Prop} {o o' : Result α} {f f' : α → Result β}
    (ho : Alike R o o') (hf : ∀ a b, R a b → Alike S (f a) (f' b)) : Alike S (andThen o f) (andThen o' f') := by
  cases ho with
  | next h => exact hf _ _ h
  | fault r => exact .fault r
  | refused r => exact .refused r

/-- Steps that read the same local are alike if what follows the read is. -/
theorem Alike.withLocal {α β : Type} {S : β → β → Prop} (x : HostLocal) (v : Option α) {f f' : α → Result β}
    (hf : ∀ a, Alike S (f a) (f' a)) : Alike S (withLocal x v f) (withLocal x v f') := by
  cases v with
  | none => exact .fault _
  | some a => exact hf a

/-! ### CAPBASE is never read -/

/-- `t` is `s` but for CAPBASE. -/
def State.SameButCapBase (s t : State) : Prop := ∃ c, t = { s with capBase := c }

/-- The same for what a step of SEND_FRAME leaves. -/
def SendResult.SameButCapBase (x y : SendResult) : Prop := ∃ c, y = { x with state := { x.state with capBase := c } }

section CapBase

variable {s t : State} (h : s.SameButCapBase t)

include h

theorem clkOp_sameButCapBase (p : Params) : (clkOp p s).SameButCapBase (clkOp p t) := by
  obtain ⟨c, rfl⟩ := h
  simp only [clkOp, winBaseAtEnd, latchTick, State.latch]
  split_ifs
  · exact ⟨c + 1, rfl⟩
  · exact ⟨c + 1, rfl⟩
  · exact ⟨c + 1, rfl⟩
  · exact ⟨c, rfl⟩

theorem edgeSvcOp_sameButCapBase (p : Params) : (edgeSvcOp p s).SameButCapBase (edgeSvcOp p t) := by
  obtain ⟨c, rfl⟩ := h
  by_cases hl : (s.low + 1).toNat = p.lowWrap
  · rw [edgeSvcOp_carry p hl, edgeSvcOp_carry p (s := { s with capBase := c }) hl]
    exact ⟨c, rfl⟩
  · rw [edgeSvcOp_count p hl, edgeSvcOp_count p (s := { s with capBase := c }) hl]
    exact ⟨c, rfl⟩

theorem endBit_sameButCapBase : (endBit s).SameButCapBase (endBit t) := by
  obtain ⟨c, rfl⟩ := h
  simp only [endBit]
  split_ifs <;> exact ⟨c, rfl⟩

theorem startChar_sameButCapBase : (startChar s).SameButCapBase (startChar t) := by
  obtain ⟨c, rfl⟩ := h
  simp only [startChar]
  split_ifs <;> exact ⟨c, rfl⟩

theorem driveLine_sameButCapBase : (driveLine s).SameButCapBase (driveLine t) := by
  obtain ⟨c, rfl⟩ := h
  exact ⟨c, rfl⟩

/-- No operation reads CAPBASE: CLK adds to it, CLEAR and RESET zero it (40_counter_timer.md R115). -/
theorem exec_alike (i : Instr) : Alike State.SameButCapBase (exec i s) (exec i t) := by
  have hs := h
  obtain ⟨c, rfl⟩ := h
  cases i
  case clk => exact .next (clkOp_sameButCapBase hs _)
  case baud => exact .next (driveLine_sameButCapBase (startChar_sameButCapBase (endBit_sameButCapBase hs)))
  case edge =>
    simp only [exec, execEdge, State.latch]
    split_ifs <;> exact .next ⟨c, rfl⟩
  case btn =>
    simp only [exec, execBtn, State.latch]
    split_ifs <;> exact .next ⟨c, rfl⟩
  case txWr b =>
    simp only [exec, execTxWr]
    split_ifs <;> exact .next ⟨c, rfl⟩
  case tickSvc =>
    simp only [exec, execTickSvc]
    split_ifs
    · exact .next ⟨c, rfl⟩
    · exact .refused _
  case edgeSvc =>
    simp only [exec, execEdgeSvc]
    split_ifs
    · exact .next (edgeSvcOp_sameButCapBase hs _)
    · exact .refused _
  case reset => exact .next ⟨0, rfl⟩
  case clear => exact .next ⟨0, rfl⟩
  all_goals exact .next ⟨c, rfl⟩

/-- An operation, and then something that does not look at CAPBASE. -/
theorem exec_andThen_alike {α : Type} {R : α → α → Prop} (i : Instr) {f : State → Result α}
    (hf : ∀ u c, Alike R (f u) (f { u with capBase := c })) :
    Alike R (andThen (exec i s) f) (andThen (exec i t) f) := by
  refine (exec_alike h i).andThen ?_
  rintro u _ ⟨c, rfl⟩
  exact hf u c

theorem sendIssue_alike (i : Instr) (r : Option Bool) (k : Option SendPc) :
    Alike SendResult.SameButCapBase (sendIssue i r k s) (sendIssue i r k t) :=
  exec_andThen_alike h i fun _ c => .next ⟨c, rfl⟩

theorem sendPoll_alike (k : SendPc) : Alike SendResult.SameButCapBase (sendPoll k s) (sendPoll k t) :=
  exec_andThen_alike h .rdTxrdy fun _ c => .next ⟨c, rfl⟩

theorem sendTest_alike (name : HostLocal) (poll k : SendPc) (r : Option Bool) :
    Alike SendResult.SameButCapBase (sendTest name poll k r s) (sendTest name poll k r t) := by
  obtain ⟨c, rfl⟩ := h
  exact .withLocal _ _ fun ready => .next ⟨c, rfl⟩

theorem sendStep_alike (nA nB nR : HostLocal) (a b : Option Word) (k : SendPc) (r : Option Bool) :
    Alike SendResult.SameButCapBase (sendStep nA nB nR a b k r s) (sendStep nA nB nR a b k r t) := by
  cases k
  case ledOn | ledOff => exact sendIssue_alike h _ r _
  case poll1 | poll2 => exact sendPoll_alike h _
  case test1 | test2 => exact sendTest_alike h _ _ _ r
  case write1 | write2 => exact .withLocal _ _ fun v => sendIssue_alike h _ r _

theorem mainStep_alike (p : Params) (offer : Option AdcResult) (kt ke : Bool) :
    Alike State.SameButCapBase (mainStep p offer kt ke s) (mainStep p offer kt ke t) := by
  have hs := h
  obtain ⟨c, rfl⟩ := h
  cases hpc : s.main.pc <;> simp only [mainStep, hpc]
  case gSample =>
    cases offer with
    | none => exact .refused _
    | some v => exact .next ⟨c, rfl⟩
  case gGate | gWaitTest => exact .withLocal _ _ fun v => .next ⟨c, rfl⟩
  case gTest => exact .withLocal _ _ fun l => .withLocal _ _ fun g => .next ⟨c, rfl⟩
  case gSettle | gLoop => exact .next ⟨c, rfl⟩
  case gSend k =>
    refine (sendStep_alike hs _ _ _ _ _ k _).andThen ?_
    rintro x _ ⟨d, rfl⟩
    exact .next ⟨d, rfl⟩
  all_goals exact exec_andThen_alike hs _ fun _ d => .next ⟨d, rfl⟩

theorem bctxStep_alike : Alike State.SameButCapBase (bctxStep s) (bctxStep t) := by
  have hs := h
  obtain ⟨c, rfl⟩ := h
  simp only [bctxStep]
  split_ifs
  · cases hpc : s.bctx.pc <;> simp only [bctxProgram, hpc]
    case bSend k =>
      refine (sendStep_alike hs _ _ _ _ _ k _).andThen ?_
      rintro x _ ⟨d, rfl⟩
      exact .next ⟨d, rfl⟩
    case bRet => exact .next ⟨c, rfl⟩
  · exact .next ⟨c, rfl⟩
  · exact .refused _

theorem issueWord_alike (a : Agent) (w : Word) :
    Alike State.SameButCapBase (issueWord a w s) (issueWord a w t) := by
  have hs := h
  obtain ⟨c, rfl⟩ := h
  have hruns : agentRuns a { s with capBase := c } = agentRuns a s := rfl
  cases hd : decode w <;> simp only [issueWord, hd, hruns]
  case error e => exact .next ⟨c, rfl⟩
  case ok i =>
    split_ifs
    · exact exec_alike hs i
    · exact .refused _
    · exact .next ⟨c, rfl⟩

theorem runTurn_alike (u : Turn) : Alike State.SameButCapBase (runTurn u s) (runTurn u t) := by
  cases u <;> simp only [runTurn]
  case issue a w => exact issueWord_alike h a w
  case bctx => exact bctxStep_alike h
  case main offer kt ke =>
    have hruns : agentRuns .main t = agentRuns .main s := by obtain ⟨c, rfl⟩ := h; rfl
    rw [hruns]
    split_ifs
    · exact mainStep_alike h _ _ _ _
    · exact .refused _

theorem nextTurn_sameButCapBase : nextTurn t = nextTurn s := by
  obtain ⟨c, rfl⟩ := h
  rfl

theorem takeTurn_sameButCapBase : (takeTurn s).SameButCapBase (takeTurn t) := by
  obtain ⟨c, rfl⟩ := h
  refine ⟨c, ?_⟩
  cases hsch : s.schedule <;> simp [takeTurn, hsch]

/-- States that agree off CAPBASE take the same turn and step alike (40_counter_timer.md R115). -/
theorem step_alike : Alike State.SameButCapBase (step s) (step t) := by
  rw [step, step, nextTurn_sameButCapBase h]
  exact runTurn_alike (takeTurn_sameButCapBase h) _

end CapBase

/-- Settles O52: a step and its copy with another CAPBASE are alike. -/
theorem capBaseIsNeverRead : Obligations.CapBaseIsNeverRead := by
  unfold Obligations.CapBaseIsNeverRead
  intro s c
  have halike : Alike State.SameButCapBase (step s) (step { s with capBase := c }) := step_alike ⟨c, rfl⟩
  refine ⟨fun t ht => ?_, fun f => halike.fault_right, fun r => halike.refused_right⟩
  obtain ⟨_, hnext, d, rfl⟩ := halike.next_right ht
  exact ⟨d, hnext⟩

end Sys2Proof.Machine

/-!
PROOFS. The statements of 41_frame_transmitter.md: what each operation of the transmitter does, the steps of SEND_FRAME,
the line image of a frame, and who can overrun the holding buffer.
-/

namespace Sys2Proof.Machine

/-! ### The operations of the transmitter -/

/-- TX_WR into a full buffer raises TxOverrun and keeps the byte (41_frame_transmitter.md R141). -/
theorem exec_txWr_full (b : Byte) {s : State} (hf : s.txFull = true) :
    exec (.txWr b) s = .next (s.raiseFault .txOverrun) := by
  simp [exec, execTxWr, hf]

/-- Settles O19: the read answers with TXRDY, which is NOT TXFULL. -/
theorem rdTxrdyReportsEmptyBuffer : Obligations.RdTxrdyReportsEmptyBuffer := by
  unfold Obligations.RdTxrdyReportsEmptyBuffer
  exact ⟨by decide, fun s => rfl⟩

/-- Settles O20: TX_WR depends on TXFULL, and the fault it raises is the only one it adds. -/
theorem txWrFillsBufferOrOverruns : Obligations.TxWrFillsBufferOrOverruns := by
  unfold Obligations.TxWrFillsBufferOrOverruns
  refine ⟨by decide, fun a b => wellIssued_iff_host rfl a, fun b s => ⟨exec_txWr_empty b, fun hf => ?_⟩⟩
  exact ⟨_, exec_txWr_full b hf, fun f => State.mem_raiseFault_faults, rfl⟩

/-- Settles O21: one law of BAUD per case. -/
theorem baudShiftsOneBit : Obligations.BaudShiftsOneBit := by
  unfold Obligations.BaudShiftsOneBit
  refine ⟨by decide, wellIssued_iff_eq rfl, fun s => ⟨fun hb hf => ?_, fun h hf => ?_, fun hb hi => ?_,
    fun hb hi hf => ?_⟩⟩
  · exact congrArg Host.Outcome.next (baud_idle hb hf)
  · exact congrArg Host.Outcome.next (baud_start h hf)
  · exact congrArg Host.Outcome.next (baud_next hb hi)
  · exact congrArg Host.Outcome.next (baud_end hb hi hf)

/-- Settles O22: both write the level and record it, whatever it was. -/
theorem ledOperationsSetAndRecord : Obligations.LedOperationsSetAndRecord := by
  unfold Obligations.LedOperationsSetAndRecord
  exact ⟨by decide, by decide, wellIssued_iff_host rfl, wellIssued_iff_host rfl, fun s => ⟨rfl, rfl⟩⟩

/-! ### The steps of SEND_FRAME -/

/-- The narrowing to a byte is the remainder modulo 256 (00_scope.md R10, 41_frame_transmitter.md R146). -/
theorem trunc8_eq_mod (v : Word) : trunc8 v = BitVec.ofNat 8 (v.toNat % 256) := by
  exact BitVec.eq_of_toNat_eq (by simp [trunc8])

/-- While BCTX is inactive MAIN's turn is a step of its program (42_host_protocol.md R185 d). -/
theorem runTurn_main {s : State} (ha : s.bctx.active = false) (offer : Option AdcResult) (kt ke : Bool) :
    runTurn (.main offer kt ke) s = mainStep Config.params offer kt ke s := by
  simp [runTurn, agentRuns, ha]

/-- At G_SEND MAIN steps as SEND_FRAME does: where that goes on to `k'`, so does MAIN. -/
theorem mainStep_send {p : Params} {offer : Option AdcResult} {kt ke : Bool} {s t : State} {k k' : SendPc}
    {r : Option Bool} (hpc : s.main.pc = .gSend k)
    (h : sendStep .mainL .mainH .mainR s.main.l s.main.h k s.main.r s = .next ⟨t, r, some k'⟩) :
    mainStep p offer kt ke s = .next { t with main := { t.main with r := r, pc := .gSend k' } } := by
  simp [mainStep, hpc, mainSend, h]

/-- A test of WAIT_TXRDY goes on once TXRDY was seen, and else back to the poll (41_frame_transmitter.md R145). -/
theorem sendTest_written {name : HostLocal} {poll k : SendPc} {r : Option Bool} {ready : Bool} {s : State}
    (hr : r = some ready) : sendTest name poll k r s = .next ⟨s, r, some (if ready then k else poll)⟩ := by
  subst hr
  rfl

/-- A TX_WR of SEND_FRAME into an empty buffer stores the low byte of its value (41_frame_transmitter.md R146). -/
theorem sendWrite_empty {name : HostLocal} {v : Option Word} {x : Word} {r : Option Bool} {k : SendPc} {s : State}
    (hv : v = some x) (hf : s.txFull = false) : sendWrite name v r k s =
      .next ⟨{ s with txBuf := BitVec.ofNat 8 (x.toNat % 256), txFull := true }, r, some k⟩ := by
  simp [sendWrite, sendIssue, hv, exec_txWr_empty _ hf, trunc8_eq_mod]

/-- Settles O33: each step of MAIN is the one of SEND_FRAME at its control state. -/
theorem sendFrameWritesLowThenHigh : Obligations.SendFrameWritesLowThenHigh := by
  unfold Obligations.SendFrameWritesLowThenHigh
  intro s offer kt ke ha
  rw [runTurn_main ha]
  refine ⟨fun hpc => ?_, fun hpc => ?_, fun r hpc hr => ?_, fun l hpc hl hf => ?_, fun hpc => ?_, fun r hpc hr => ?_,
    fun g hpc hg hf => ?_, fun hpc => ?_⟩
  · exact mainStep_send hpc rfl
  · exact mainStep_send hpc rfl
  · exact mainStep_send hpc (sendTest_written hr)
  · exact mainStep_send hpc (sendWrite_empty hl hf)
  · exact mainStep_send hpc rfl
  · exact mainStep_send hpc (sendTest_written hr)
  · exact mainStep_send hpc (sendWrite_empty hg hf)
  · rw [mainStep, hpc]
    rfl

/-! ### The line image of a frame -/

/-- A sequence of operations runs its first part and then its second part. -/
theorem execAll_append (is js : List Instr) (s : State) :
    execAll (is ++ js) s = andThen (execAll is s) (execAll js) := by
  induction is generalizing s with
  | nil => rfl
  | cons i is ih =>
    rw [List.cons_append, execAll, execAll]
    cases exec i s with
    | next u => exact ih u
    | fault r => rfl
    | refused r => rfl

/-- A sequence goes on from where its first part leads. -/
theorem execAll_append_of_next {is : List Instr} {s t : State} (h : execAll is s = .next t) (js : List Instr) :
    execAll (is ++ js) s = execAll js t := by
  rw [execAll_append, h, andThen_next]

/-- The levels of a character up to bit `m` of the shift register's image, and those after it (30_encoding.md R71). -/
theorem charLevels_split (d : Byte) {m : Nat} (hm : m ≤ 9) : charLevels d =
    (false :: (List.range' 1 m).map (charOf d).getLsbD) ++ (List.range' (m + 1) (9 - m)).map (charOf d).getLsbD := by
  have hrange : List.range' 1 9 = List.range' 1 m ++ List.range' (m + 1) (9 - m) := by
    rw [Nat.add_comm m 1, List.range'_append_1, Nat.add_sub_cancel' hm]
  rw [charLevels_eq, hrange, List.map_append, List.cons_append]

/-- `m + 1` BAUDs on a shifter that has no bit left to send bring the waiting byte's character to bit `m`
(41_frame_transmitter.md R142). -/
theorem execAll_baud_start {m : Nat} (hm : m ≤ 9) {s : State} (h : s.txBusy = false ∨ s.txIdx = 9)
    (hf : s.txFull = true) : ∃ t, execAll (List.replicate (m + 1) .baud) s = .next t ∧ t.txBusy = true ∧
      t.txShift = charOf s.txBuf ∧ t.txIdx.toNat = m ∧ t.txFull = false ∧ t.faults = s.faults ∧
      lineLevels t.trace = lineLevels s.trace ++ false :: (List.range' 1 m).map (charOf s.txBuf).getLsbD := by
  have hbaud := baud_start h hf
  obtain ⟨d, hrun⟩ :=
    execAll_baud_inside m (s := driveLine (startChar (endBit s))) (by rw [hbaud]) (by simp [hbaud, hm])
  refine ⟨_, (execAll_replicate_baud_succ m s).trans hrun, ?_⟩
  have hidx : m % 16 = m := Nat.mod_eq_of_lt (by omega)
  simp [hbaud, hidx, lineLevels, -List.map_map]

/-- The BAUDs that remain of a character at bit `m` bring it to its stop bit, and leave the buffer
(41_frame_transmitter.md R142). -/
theorem execAll_baud_finish {m : Nat} (hm : m ≤ 9) {s : State} (hb : s.txBusy = true) (hi : s.txIdx.toNat = m) :
    ∃ t, execAll (List.replicate (9 - m) .baud) s = .next t ∧ t.txIdx = 9 ∧ t.txFull = s.txFull ∧
      t.txBuf = s.txBuf ∧ t.faults = s.faults ∧
      lineLevels t.trace = lineLevels s.trace ++ (List.range' (m + 1) (9 - m)).map s.txShift.getLsbD := by
  obtain ⟨d, hrun⟩ := execAll_baud_inside (9 - m) hb (by omega)
  refine ⟨_, hrun, ?_, rfl, rfl, rfl, by simp [hi, -List.map_map]⟩
  change s.txIdx + BitVec.ofNat 4 (9 - m) = 9
  bv_omega

/-- BAUDs on a shifter that has no bit left to send, with no byte waiting, let the line idle
(41_frame_transmitter.md R142). -/
theorem execAll_baud_idle (j : Nat) {s : State} (h : s.txBusy = false ∨ s.txIdx = 9) (hf : s.txFull = false) :
    ∃ t, execAll (List.replicate j .baud) s = .next t ∧ (t.txBusy = false ∨ t.txIdx = 9) ∧ t.txFull = false ∧
      lineLevels t.trace = lineLevels s.trace ++ List.replicate j true ∧ t.faults = s.faults := by
  induction j generalizing s with
  | zero => exact ⟨s, rfl, h, hf, by simp, rfl⟩
  | succ j ih =>
    obtain ⟨u, hu, hb, hfu, htr, hfa⟩ : ∃ u, driveLine (startChar (endBit s)) = u ∧ u.txBusy = false ∧
        u.txFull = false ∧ u.trace = s.trace ++ [.line true] ∧ u.faults = s.faults := by
      cases hb : s.txBusy with
      | false => exact ⟨_, baud_idle hb hf, hb, hf, rfl, rfl⟩
      | true => exact ⟨_, baud_end hb (h.resolve_left (by simp [hb])) hf, rfl, hf, rfl, rfl⟩
    obtain ⟨t, hrun, hend, hft, hline, hfat⟩ := ih (.inl hb) hfu
    refine ⟨t, ?_, hend, hft, ?_, hfat.trans hfa⟩
    · rw [execAll_replicate_baud_succ, hu, hrun]
    · simp [hline, htr, lineLevels, List.replicate_succ]

/-- Ten BAUDs on a shifter that has no bit left to send put the waiting byte on the line; the shifter is then at its
stop bit (30_encoding.md R71, 41_frame_transmitter.md R142). -/
theorem lineLevels_baud_character {s : State} (h : s.txBusy = false ∨ s.txIdx = 9) (hf : s.txFull = true) :
    ∃ t, execAll (List.replicate 10 .baud) s = .next t ∧ t.txIdx = 9 ∧ t.txFull = false ∧ t.faults = s.faults ∧
      lineLevels t.trace = lineLevels s.trace ++ charLevels s.txBuf := by
  obtain ⟨d, hrun⟩ := execAll_baud_character h hf
  exact ⟨_, hrun, rfl, rfl, rfl, by rw [lineLevels_append, lineLevels_map_line]⟩

/-- A byte written while no bit is left to send is on the line after ten bit times (41_frame_transmitter.md R142). -/
theorem execAll_txWr_character (b : Byte) {s : State} (h : s.txBusy = false ∨ s.txIdx = 9) (hf : s.txFull = false) :
    ∃ t, execAll (.txWr b :: List.replicate 10 .baud) s = .next t ∧ t.txIdx = 9 ∧ t.txFull = false ∧
      t.faults = s.faults ∧ lineLevels t.trace = lineLevels s.trace ++ charLevels b := by
  rw [execAll_cons_of_next (exec_txWr_empty b hf)]
  exact lineLevels_baud_character (s := { s with txBuf := b, txFull := true }) h rfl

/-- A second byte written within the character of the first follows it with no idle bit (30_encoding.md R72,
41_frame_transmitter.md R149). -/
theorem execAll_frame_within (a b : Byte) {s : State} (hb : s.txBusy = false) (hf : s.txFull = false) {m : Nat}
    (hm : m ≤ 9) : ∃ t, execAll
        (.txWr a :: List.replicate (m + 1) .baud ++ .txWr b :: List.replicate (19 - m) .baud) s = .next t ∧
      lineLevels t.trace = lineLevels s.trace ++ charLevels a ++ charLevels b ∧ t.faults = s.faults := by
  have hcount : 19 - m = (9 - m) + 10 := by omega
  obtain ⟨u, hu, hbu, hsu, hiu, hfu, hau, hlu⟩ :=
    execAll_baud_start hm (s := { s with txBuf := a, txFull := true }) (.inl hb) rfl
  obtain ⟨v, hv, hiv, hfv, hbv, hav, hlv⟩ :=
    execAll_baud_finish hm (s := { u with txBuf := b, txFull := true }) hbu hiu
  obtain ⟨t, ht, _, _, hat, hlt⟩ := lineLevels_baud_character (.inr hiv) hfv
  refine ⟨t, ?_, ?_, by rw [hat, hav, hau]⟩
  · rw [List.cons_append, execAll_cons_of_next (exec_txWr_empty a hf), execAll_append_of_next hu,
      execAll_cons_of_next (exec_txWr_empty b hfu), hcount, List.replicate_add, execAll_append_of_next hv, ht]
  · rw [hlt, hlv, hlu, hbv, hsu, charLevels_split a hm, List.append_assoc (lineLevels s.trace)]

/-- Settles O58: the second byte meets a character of the first that is being sent, or one that has ended. -/
theorem frameLineImage : Obligations.FrameLineImage := by
  unfold Obligations.FrameLineImage
  intro a b s hb hf
  refine ⟨fun m hm => execAll_frame_within a b hb hf hm, fun j => ?_⟩
  obtain ⟨u, hu, hiu, hfu, hau, hlu⟩ := execAll_txWr_character a (.inl hb) hf
  obtain ⟨v, hv, hiv, hfv, hlv, hav⟩ := execAll_baud_idle j (.inr hiu) hfu
  obtain ⟨t, ht, _, _, hat, hlt⟩ := execAll_txWr_character b hiv hfv
  refine ⟨t, ?_, by rw [hlt, hlv, hlu], by rw [hat, hav, hau]⟩
  rw [List.replicate_add, ← List.cons_append, List.append_assoc, execAll_append_of_next hu,
    execAll_append_of_next hv, ht]

/-! ### Who can overrun the holding buffer -/

@[simp] theorem takeTurn_txFull (s : State) : (takeTurn s).txFull = s.txFull := by
  obtain ⟨sch, n, h⟩ := takeTurn_eq s
  rw [h]

/-- An operation other than TX_WR fills no empty buffer and adds no fault (41_frame_transmitter.md R141). -/
theorem exec_leaves_buffer_empty {i : Instr} {s t : State} (hi : ∀ b, i ≠ .txWr b) (h : exec i s = .next t) :
    (s.txFull = false → t.txFull = false) ∧ t.faults = s.faults := by
  obtain ⟨_, _, _, _, _, _, _, _, hfull, _, _, hfaults, _, _⟩ := onlyListedOperationsWriteAnElement i s t h
  cases i
  case txWr => exact absurd rfl (hi _)
  case reset => cases h; exact ⟨fun _ => rfl, rfl⟩
  case baud =>
    refine ⟨fun hf => ?_, hfaults (by simp [Instr.mnemonic])⟩
    rcases execBaud_cases h with ⟨_, _, rfl⟩ | ⟨_, _, rfl⟩ | ⟨_, _, rfl⟩ | ⟨_, _, _, rfl⟩
    · exact hf
    · rfl
    · exact hf
    · exact hf
  all_goals exact ⟨(hfull (by simp [Instr.mnemonic])).trans, hfaults (by simp [Instr.mnemonic])⟩

/-- A turn that is not the button's is one of the programs' own. -/
theorem Turn.followsPrograms_of_notButton {t : Turn} (h : t.notButton = true) : t.followsPrograms = true := by
  cases t with
  | issue a w => cases a <;> exact h
  | main offer kt ke => rfl
  | bctx => rfl

/-- A word issued outside the host contexts is no TX_WR (30_encoding.md R75, R78). -/
theorem ne_txWr_of_followsPrograms {a : Agent} {w : Word} {i : Instr}
    (ht : (Turn.issue a w).followsPrograms = true) (hw : wellIssued a i = true) (b : Byte) : i ≠ .txWr b := by
  rintro rfl
  rcases (wellIssued_iff_host rfl a).mp hw with rfl | rfl <;> cases ht

/-- A context faces an empty buffer once it has seen TXRDY, and at its TX_WR. -/
theorem SendPc.bufferFree_iff {k : SendPc} {r : Option Bool} {s : State} : k.bufferFree r s = true ↔
    ((k = .test1 ∨ k = .test2) ∧ r = some true ∨ k = .write1 ∨ k = .write2 → s.txFull = false) := by
  cases k <;> simp [SendPc.bufferFree, imp_iff_not_or]

/-- A context still faces an empty buffer while no empty buffer is filled. -/
theorem SendPc.bufferFree_of_imp {k : SendPc} {r : Option Bool} {s t : State}
    (hf : s.txFull = false → t.txFull = false) (hk : k.bufferFree r s = true) : k.bufferFree r t = true :=
  SendPc.bufferFree_iff.mpr fun h => hf (SendPc.bufferFree_iff.mp hk h)

/-- A step of SEND_FRAME by a context that faces an empty buffer adds no fault, and the context still does after it: the
poll reports the buffer it finds, and TX_WR is reached only from a test that saw it empty
(41_frame_transmitter.md R145). -/
theorem sendStep_bufferFree {nA nB nR : HostLocal} {a b : Option Word} {k : SendPc} {r : Option Bool} {s : State}
    {x : SendResult} (hk : k.bufferFree r s = true) (h : sendStep nA nB nR a b k r s = .next x) :
    x.state.faults = s.faults ∧ ∀ k', x.next = some k' → k'.bufferFree x.r x.state = true := by
  rw [SendPc.bufferFree_iff] at hk
  cases k <;> simp only [sendStep, sendIssue, sendPoll, sendTest, sendWrite, andThen_eq_next, withLocal_eq_next] at h
  case ledOn =>
    obtain ⟨s', he, hx⟩ := h
    cases hx; cases he
    exact ⟨rfl, by rintro k' ⟨⟩; rfl⟩
  case ledOff =>
    obtain ⟨s', he, hx⟩ := h
    cases hx; cases he
    exact ⟨rfl, nofun⟩
  case poll1 | poll2 =>
    obtain ⟨s', he, hx⟩ := h
    cases hx; cases he
    exact ⟨rfl, by rintro k' ⟨⟩; simp [SendPc.bufferFree, ReadValue.bit, txReady]⟩
  case test1 | test2 =>
    obtain ⟨ready, hr, hx⟩ := h
    cases hx
    refine ⟨rfl, ?_⟩
    rintro k' ⟨⟩
    cases ready with
    | false => rfl
    | true => exact SendPc.bufferFree_iff.mpr fun _ => hk (by simp [hr])
  case write1 | write2 =>
    obtain ⟨v, _, s', he, hx⟩ := h
    cases hx
    cases (exec_txWr_empty (trunc8 v) (hk (by simp))).symm.trans he
    exact ⟨rfl, by rintro k' ⟨⟩; rfl⟩

/-! ### The button context -/

theorem State.bctxBufferFree_iff {s : State} : s.BctxBufferFree ↔
    ∀ k, s.bctx.pc = .bSend k → s.bctx.active = true → k.bufferFree s.bctx.r s = true := by
  cases hpc : s.bctx.pc <;> simp [State.BctxBufferFree, hpc]

/-- BCTX faces no full buffer while it is inactive. -/
theorem State.bctxBufferFree_of_inactive {s : State} (ha : s.bctx.active = false) : s.BctxBufferFree :=
  State.bctxBufferFree_iff.mpr fun _ _ h => absurd (ha.symm.trans h) nofun

/-- What leaves BCTX and fills no empty buffer keeps BCTX from overrunning. -/
theorem State.BctxBufferFree.of_bctx_eq {s t : State} (hs : s.BctxBufferFree) (hb : t.bctx = s.bctx)
    (hf : s.txFull = false → t.txFull = false) : t.BctxBufferFree := by
  rw [State.bctxBufferFree_iff, hb]
  exact fun k hk ha => SendPc.bufferFree_of_imp hf (State.bctxBufferFree_iff.mp hs k hk ha)

/-- An operation other than TX_WR keeps BCTX from overrunning; RESET ends BCTX. -/
theorem State.BctxBufferFree.of_exec {i : Instr} {s t : State} (hs : s.BctxBufferFree) (hi : ∀ b, i ≠ .txWr b)
    (h : exec i s = .next t) : t.BctxBufferFree := by
  rcases exec_contexts h with ⟨_, hb⟩ | ⟨_, _, hb⟩
  · exact hs.of_bctx_eq hb (exec_leaves_buffer_empty hi h).1
  · exact State.bctxBufferFree_of_inactive (by rw [hb])

/-- BCTX's program adds no fault and keeps BCTX from overrunning (42_host_protocol.md R183). -/
theorem bctxProgram_bufferFree {s t : State} (hs : s.BctxBufferFree) (ha : s.bctx.active = true)
    (h : bctxProgram s = .next t) : t.BctxBufferFree ∧ t.faults = s.faults := by
  cases hpc : s.bctx.pc <;> simp only [bctxProgram, hpc] at h
  case bSend k =>
    obtain ⟨x, hx, h⟩ := andThen_eq_next.mp h
    cases h
    obtain ⟨hfaults, hnext⟩ := sendStep_bufferFree (State.bctxBufferFree_iff.mp hs k hpc ha) hx
    refine ⟨?_, hfaults⟩
    cases hk : x.next with
    | none => trivial
    | some k' => exact fun _ => SendPc.bufferFree_of_imp id (hnext k' hk)
  case bRet => cases h; exact ⟨State.bctxBufferFree_of_inactive rfl, rfl⟩

/-- Settles O50: by what each kind of turn does to BCTX and the buffer; MAIN has no turn while BCTX is active. -/
theorem buttonContextNeverOverruns : Obligations.ButtonContextNeverOverruns := by
  unfold Obligations.ButtonContextNeverOverruns
  intro s t hs hturn h
  have hs' : (takeTurn s).BctxBufferFree := hs.of_bctx_eq (takeTurn_bctx s) (takeTurn_txFull s).trans
  rcases runTurn_cases h with ⟨a, w, ht, _, rfl⟩ | ⟨a, w, i, ht, _, hw, _, he⟩ | ⟨_, _, _, ht, ha, hm⟩ |
    ⟨_, ha, hb⟩ | ⟨_, _, _, rfl⟩
  · exact ⟨hs'.of_bctx_eq rfl id, by simp [ht]⟩
  · exact ⟨hs'.of_exec (ne_txWr_of_followsPrograms (ht ▸ hturn) hw) he, by simp [ht]⟩
  · exact ⟨State.bctxBufferFree_of_inactive (mainStep_bctx hm ▸ ha), by simp [ht]⟩
  · obtain ⟨hfree, hfaults⟩ := bctxProgram_bufferFree hs' ha hb
    exact ⟨hfree, fun _ => hfaults.trans (takeTurn_faults s)⟩
  · exact ⟨fun _ => rfl, fun _ => takeTurn_faults s⟩

/-! ### MAIN -/

theorem State.mainBufferFree_iff {s : State} : s.MainBufferFree ↔
    ∀ k, s.main.pc = .gSend k → k.bufferFree s.main.r s = true := by
  cases hpc : s.main.pc <;> simp [State.MainBufferFree, hpc]

/-- What leaves MAIN and fills no empty buffer keeps MAIN from overrunning. -/
theorem State.MainBufferFree.of_main_eq {s t : State} (hs : s.MainBufferFree) (hm : t.main = s.main)
    (hf : s.txFull = false → t.txFull = false) : t.MainBufferFree := by
  rw [State.mainBufferFree_iff, hm]
  exact fun k hk => SendPc.bufferFree_of_imp hf (State.mainBufferFree_iff.mp hs k hk)

/-- An operation other than TX_WR keeps MAIN from overrunning; RESET takes MAIN back to G_SAMPLE. -/
theorem State.MainBufferFree.of_exec {i : Instr} {s t : State} (hs : s.MainBufferFree) (hi : ∀ b, i ≠ .txWr b)
    (h : exec i s = .next t) : t.MainBufferFree := by
  rcases exec_contexts h with ⟨hm, _⟩ | ⟨_, hm, _⟩
  · exact hs.of_main_eq hm (exec_leaves_buffer_empty hi h).1
  · simp [State.mainBufferFree_iff, hm]

/-- MAIN's program adds no fault and keeps MAIN from overrunning: it comes to SEND_FRAME at LED_ON, before any test
(42_host_protocol.md R170). -/
theorem mainStep_bufferFree {p : Params} {offer : Option AdcResult} {kt ke : Bool} {s t : State}
    (hs : s.MainBufferFree) (h : mainStep p offer kt ke s = .next t) : t.MainBufferFree ∧ t.faults = s.faults := by
  cases hpc : s.main.pc <;> simp only [mainStep, hpc] at h
  case gSample => cases offer <;> cases h; exact ⟨trivial, rfl⟩
  case gGate | gWaitTest =>
    obtain ⟨v, _, h⟩ := withLocal_eq_next.mp h
    cases h
    refine ⟨?_, rfl⟩
    simp only [State.mainGoto]
    split <;> trivial
  case gTest =>
    obtain ⟨l, _, h⟩ := withLocal_eq_next.mp h
    obtain ⟨g, _, h⟩ := withLocal_eq_next.mp h
    cases h
    refine ⟨?_, rfl⟩
    simp only [State.mainGoto]
    split
    · trivial
    · rfl
  case gSend k =>
    obtain ⟨x, hx, h⟩ := andThen_eq_next.mp h
    cases h
    obtain ⟨hfaults, hnext⟩ := sendStep_bufferFree (State.mainBufferFree_iff.mp hs k hpc) hx
    refine ⟨?_, hfaults⟩
    cases hk : x.next with
    | none => trivial
    | some k' => exact SendPc.bufferFree_of_imp id (hnext k' hk)
  all_goals cases h; exact ⟨trivial, rfl⟩

/-- Settles O51: by what each kind of turn but the button's does to MAIN and the buffer. -/
theorem overrunNeedsButtonPreemption : Obligations.OverrunNeedsButtonPreemption := by
  unfold Obligations.OverrunNeedsButtonPreemption
  intro s t hs hturn h
  have hs' : (takeTurn s).MainBufferFree := hs.of_main_eq (takeTurn_main s) (takeTurn_txFull s).trans
  suffices t.MainBufferFree ∧ t.faults = (takeTurn s).faults by rwa [takeTurn_faults] at this
  rcases runTurn_cases h with ⟨_, _, _, _, rfl⟩ | ⟨a, w, i, ht, _, hw, _, he⟩ | ⟨_, _, _, _, _, hm⟩ |
    ⟨ht, _, _⟩ | ⟨ht, _, _, _⟩
  · exact ⟨hs'.of_main_eq rfl id, rfl⟩
  · have hi := ne_txWr_of_followsPrograms (ht ▸ Turn.followsPrograms_of_notButton hturn) hw
    exact ⟨hs'.of_exec hi he, (exec_leaves_buffer_empty hi he).2⟩
  · exact mainStep_bufferFree hs' hm
  all_goals simp [ht, Turn.notButton] at hturn

end Sys2Proof.Machine

/-!
PROOFS. The statements of 42_host_protocol.md: the steps of MAIN and of BCTX, how the two contexts move and what they
leave each other, the turns of a free choice, the block while no signal is present, and the receiver's contract.
-/

namespace Sys2Proof.Machine

/-! ### The turns of the host contexts -/

/-- MAIN's turn answers exactly while BCTX is inactive and MAIN's program steps (42_host_protocol.md R185 d). -/
theorem runTurn_main_eq_next {offer : Option AdcResult} {kt ke : Bool} {s t : State} :
    runTurn (.main offer kt ke) s = .next t ↔
      s.bctx.active = false ∧ mainStep Config.params offer kt ke s = .next t := by
  cases ha : s.bctx.active <;> simp [runTurn, agentRuns, ha]

/-- BCTX's turn while it is active is a step of its program (42_host_protocol.md R183). -/
theorem runTurn_bctx_active {s : State} (ha : s.bctx.active = true) : runTurn .bctx s = bctxProgram s := by
  simp [runTurn, bctxStep, ha]

/-- BCTX's turn while it is inactive is the entry, which a pending button enables (42_host_protocol.md R182). -/
theorem runTurn_bctx_inactive {s t : State} (ha : s.bctx.active = false) :
    runTurn .bctx s = .next t ↔ s.btnPend = true ∧ t = s.enterButton := by
  cases hb : s.btnPend <;> simp [runTurn, bctxStep, ha, hb, eq_comm]

/-- A word that names an operation of an agent that does not run has no step (log 5). -/
theorem runTurn_issue_not_running {a : Agent} {w : Word} {i : Instr} {s : State} (hd : decode w = .ok i)
    (hw : wellIssued a i = true) (hr : agentRuns a s = false) :
    runTurn (.issue a w) s = .refused (.notEnabled a) := by
  simp [runTurn, issueWord, hd, hw, hr]

/-- The host contexts run in turn; ENV and SVC always do (42_host_protocol.md R185). -/
theorem agentRuns_iff {a : Agent} {s : State} : agentRuns a s = true ↔
    (a = .main → s.bctx.active = false) ∧ (a = .bctx → s.bctx.active = true) := by
  cases a <;> simp [agentRuns]

/-- Settles O9: the word names an operation of its issuer, so only whether the issuer runs is left. -/
theorem stepRunsDecodedOperation : Obligations.StepRunsDecodedOperation := by
  unfold Obligations.StepRunsDecodedOperation
  intro s a w i rest hs hd hw
  obtain rfl := encode_of_decode hd
  rw [step_placed hs]
  refine ⟨fun hmain hbctx => runTurn_issue_encode hd hw (agentRuns_iff.mpr ⟨hmain, hbctx⟩), fun hidle t => ?_⟩
  have hr : agentRuns a { s with schedule := rest } = false := by
    rcases hidle with ⟨rfl, ha⟩ | ⟨rfl, ha⟩ <;> simp [agentRuns, ha]
  rw [runTurn_issue_not_running hd hw hr]
  exact nofun

/-! ### The tests of MAIN's program -/

/-- The gate goes on exactly from the threshold (42_host_protocol.md R173). -/
theorem mainStep_gate {offer : Option AdcResult} {kt ke : Bool} {s : State} {v : AdcResult}
    (hpc : s.main.pc = .gGate) (hv : s.main.v = some v) : mainStep Config.params offer kt ke s =
      .next (s.mainGoto (if v.toNat < 203 then .gSample else .gSettle)) := by
  rw [mainStep, hpc]
  exact withLocal_eq_next.mpr ⟨v, hv, rfl⟩

/-- The wait ends exactly on the number of window-ticks (42_host_protocol.md R176). -/
theorem mainStep_waitTest {offer : Option AdcResult} {kt ke : Bool} {s : State} {t : Word}
    (hpc : s.main.pc = .gWaitTest) (ht : s.main.t = some t) : mainStep Config.params offer kt ke s =
      .next (s.mainGoto (if t.toNat = 25 then .gDisarm else .gWait)) := by
  rw [mainStep, hpc]
  exact withLocal_eq_next.mpr ⟨t, ht, rfl⟩

/-- G_TEST sends exactly a pair that is not zero (42_host_protocol.md R179). -/
theorem mainStep_test {p : Params} {offer : Option AdcResult} {kt ke : Bool} {s : State} {l h : Word}
    (hpc : s.main.pc = .gTest) (hl : s.main.l = some l) (hh : s.main.h = some h) : mainStep p offer kt ke s =
      .next (s.mainGoto (if l = 0 ∧ h = 0 then .gClear else .gSend .ledOn)) := by
  rw [mainStep, hpc]
  exact withLocal_eq_next.mpr ⟨l, hl, withLocal_eq_next.mpr ⟨h, hh, rfl⟩⟩

/-! ### The block while no signal is present -/

/-- ENV's operations other than BTN leave the block silent: disarmed timers let clocks and edges pass, and an idle
transmitter puts 1 on the line (42_host_protocol.md R192). -/
theorem exec_silent {i : Instr} {s t : State} (hs : s.Silent) (henv : wellIssued .env i = true) (hbtn : i ≠ .btn)
    (h : exec i s = .next t) :
    t.Silent ∧ t.faults = s.faults ∧ (t.trace = s.trace ∨ t.trace = s.trace ++ [.line true]) := by
  cases i
  case reset =>
    cases h
    exact ⟨{ gate := .inl rfl, armed := rfl, pending := ⟨rfl, rfl, rfl⟩, counters := ⟨rfl, rfl, rfl⟩,
             idle := ⟨rfl, rfl⟩, led := rfl, button := rfl }, rfl, .inl rfl⟩
  case clk =>
    cases h
    rw [clkOp_disarmed _ hs.armed]
    exact ⟨hs, rfl, .inl rfl⟩
  case edge =>
    cases (exec_edge_disarmed hs.armed).symm.trans h
    exact ⟨hs, rfl, .inl rfl⟩
  case baud =>
    obtain ⟨hfull, hbusy⟩ := hs.idle
    cases h
    rw [baud_idle hbusy hfull]
    exact ⟨{ hs with }, rfl, .inr rfl⟩
  case btn => exact absurd rfl hbtn
  all_goals cases henv

/-- SVC's operations have no step without their pending flag (40_counter_timer.md R103, R104). -/
theorem State.Silent.exec_svc_ne_next {i : Instr} {s t : State} (hs : s.Silent) (hsvc : wellIssued .svc i = true) :
    exec i s ≠ .next t := by
  obtain ⟨htick, hedge, _⟩ := hs.pending
  intro h
  cases i
  case tickSvc =>
    obtain ⟨hp, _⟩ := execTickSvc_eq_next.mp h
    exact absurd (htick.symm.trans hp) nofun
  case edgeSvc =>
    obtain ⟨hp, _⟩ := execEdgeSvc_eq_next.mp h
    exact absurd (hedge.symm.trans hp) nofun
  all_goals cases hsvc

/-- Without a result at or above the threshold MAIN goes round between sample and gate, and writes only its own state
(42_host_protocol.md R171, R173). -/
theorem mainStep_silent {offer : Option AdcResult} {kt ke : Bool} {s t : State} (hs : s.Silent)
    (ho : offer.all (fun v => decide (v.toNat < 203)) = true) (h : mainStep Config.params offer kt ke s = .next t) :
    t.Silent ∧ t.faults = s.faults ∧ t.trace = s.trace := by
  rcases hs.gate with hpc | ⟨hpc, v, hv, hlt⟩
  · simp only [mainStep, hpc] at h
    cases offer with
    | none => cases h
    | some v =>
      cases h
      exact ⟨{ hs with gate := .inr ⟨rfl, v, rfl, by simpa using ho⟩ }, rfl, rfl⟩
  · rw [mainStep_gate hpc hv, if_pos hlt] at h
    cases h
    exact ⟨{ hs with gate := .inl rfl }, rfl, rfl⟩

theorem takeTurn_keeps_silent {s : State} (hs : s.Silent) : (takeTurn s).Silent := by
  obtain ⟨sch, n, h⟩ := takeTurn_eq s
  rw [h]
  exact { hs with }

@[simp] theorem takeTurn_trace (s : State) : (takeTurn s).trace = s.trace := by
  obtain ⟨sch, n, h⟩ := takeTurn_eq s
  rw [h]

/-- Settles O47: of all turns only ENV's operations and MAIN's sample and gate answer in a silent state. -/
theorem noSignalRunStaysSilent : Obligations.NoSignalRunStaysSilent := by
  unfold Obligations.NoSignalRunStaysSilent
  intro s t hs hturn h
  have hs' := takeTurn_keeps_silent hs
  rw [← takeTurn_faults s, ← takeTurn_trace s]
  rcases runTurn_cases h with ⟨_, _, _, _, rfl⟩ | ⟨a, w, i, ht, hd, hw, _, he⟩ | ⟨_, _, _, ht, _, hm⟩ |
    ⟨_, ha, _⟩ | ⟨_, _, hb, _⟩
  · exact ⟨{ hs' with }, rfl, .inl rfl⟩
  · obtain rfl := encode_of_decode hd
    rw [ht] at hturn
    cases a with
    | env =>
      have hbtn : i ≠ .btn := by
        rintro rfl
        simp [Turn.bringsNoSignal] at hturn
      exact exec_silent hs' hw hbtn he
    | svc => exact absurd he (hs'.exec_svc_ne_next hw)
    | main | bctx => cases hturn
  · rw [ht] at hturn
    obtain ⟨hsilent, hfaults, htrace⟩ := mainStep_silent hs' hturn hm
    exact ⟨hsilent, hfaults, .inl htrace⟩
  · exact absurd (hs'.button.symm.trans ha) nofun
  · obtain ⟨_, _, hbtn⟩ := hs'.pending
    exact absurd (hbtn.symm.trans hb) nofun

/-! ### How the contexts move -/

/-- A step of SEND_FRAME other than LED_OFF moves MAIN inside G_SEND (42_host_protocol.md R170). -/
theorem MainPc.mem_successors_gSend {k k' : SendPc} (hk : k ≠ .ledOff) (h : k' ∈ k.successors) :
    .gSend k' ∈ (MainPc.gSend k).successors := by
  cases k
  case ledOff => exact absurd rfl hk
  all_goals exact List.mem_map_of_mem h

/-- A step of SEND_FRAME other than LED_OFF moves BCTX inside B_SEND (42_host_protocol.md R183). -/
theorem BctxPc.mem_successors_bSend {k k' : SendPc} (hk : k ≠ .ledOff) (h : k' ∈ k.successors) :
    .bSend k' ∈ (BctxPc.bSend k).successors := by
  cases k
  case ledOff => exact absurd rfl hk
  all_goals exact List.mem_map_of_mem h

/-- MAIN moves along its program (42_host_protocol.md R170). -/
theorem mainStep_successors {p : Params} {offer : Option AdcResult} {kt ke : Bool} {s t : State}
    (h : mainStep p offer kt ke s = .next t) : t.main.pc ∈ s.main.pc.successors := by
  cases hpc : s.main.pc <;> simp only [mainStep, hpc] at h
  case gSample => cases offer <;> cases h; exact List.mem_singleton_self _
  case gGate | gWaitTest =>
    obtain ⟨v, _, h⟩ := withLocal_eq_next.mp h
    cases h
    simp only [State.mainGoto]
    split <;> simp [MainPc.successors]
  case gTest =>
    obtain ⟨l, _, h⟩ := withLocal_eq_next.mp h
    obtain ⟨g, _, h⟩ := withLocal_eq_next.mp h
    cases h
    simp only [State.mainGoto]
    split <;> simp [MainPc.successors]
  case gSend k =>
    obtain ⟨x, hx, h⟩ := andThen_eq_next.mp h
    cases h
    rcases sendStep_successors hx with ⟨rfl, hn⟩ | ⟨hk, k', hn, hk'⟩ <;> simp only [hn]
    · exact List.mem_singleton_self _
    · exact MainPc.mem_successors_gSend hk hk'
  all_goals cases h; exact List.mem_singleton_self _

/-- What BCTX may not touch: the counter unit, its flags, and MAIN (42_host_protocol.md R183). -/
structure State.SameOutsideButton (s t : State) : Prop where
  wt : t.wt = s.wt
  low : t.low = s.low
  high : t.high = s.high
  winBase : t.winBase = s.winBase
  capBase : t.capBase = s.capBase
  armed : t.armed = s.armed
  tickPend : t.tickPend = s.tickPend
  edgePend : t.edgePend = s.edgePend
  main : t.main = s.main

theorem State.SameOutsideButton.refl (s : State) : s.SameOutsideButton s :=
  ⟨rfl, rfl, rfl, rfl, rfl, rfl, rfl, rfl, rfl⟩

/-- BCTX's program leaves the counter unit and MAIN: its operations are those of SEND_FRAME (42_host_protocol.md
R183). -/
theorem bctxProgram_sameOutsideButton {s t : State} (h : bctxProgram s = .next t) : s.SameOutsideButton t := by
  obtain ⟨u, b, hu, rfl⟩ := bctxProgram_block h
  suffices s.SameOutsideButton u from { this with }
  rcases hu with rfl | hpoll | hwrite | hon | hoff
  · exact .refl u
  · cases hpoll; exact { State.SameOutsideButton.refl s with }
  · rcases execTxWr_cases hwrite with ⟨_, rfl⟩ | ⟨_, rfl⟩ <;> exact { State.SameOutsideButton.refl s with }
  · cases hon; exact { State.SameOutsideButton.refl s with }
  · cases hoff; exact { State.SameOutsideButton.refl s with }

/-- BCTX's turn leaves the counter unit and MAIN, its entry included (42_host_protocol.md R182, R183). -/
theorem runTurn_bctx_sameOutsideButton {s t : State} (h : runTurn .bctx s = .next t) : s.SameOutsideButton t := by
  cases ha : s.bctx.active with
  | true =>
    rw [runTurn_bctx_active ha] at h
    exact bctxProgram_sameOutsideButton h
  | false =>
    obtain ⟨_, rfl⟩ := (runTurn_bctx_inactive ha).mp h
    exact { State.SameOutsideButton.refl s with }

/-- BCTX moves along its program and stays active until B_RET (42_host_protocol.md R183). -/
theorem bctxProgram_successors {s t : State} (ha : s.bctx.active = true) (h : bctxProgram s = .next t) :
    (s.bctx.pc ≠ .bRet → t.bctx.active = true ∧ t.bctx.pc ∈ s.bctx.pc.successors) ∧
    (s.bctx.pc = .bRet → t.bctx = { s.bctx with active := false }) := by
  cases hpc : s.bctx.pc <;> simp only [bctxProgram, hpc] at h
  case bSend k =>
    obtain ⟨x, hx, h⟩ := andThen_eq_next.mp h
    cases h
    obtain ⟨_, hb⟩ := sendStep_contexts hx
    refine ⟨fun _ => ⟨by rw [hb, ha], ?_⟩, nofun⟩
    rcases sendStep_successors hx with ⟨rfl, hn⟩ | ⟨hk, k', hn, hk'⟩ <;> simp only [hn]
    · exact List.mem_singleton_self _
    · exact BctxPc.mem_successors_bSend hk hk'
  case bRet =>
    cases h
    exact ⟨fun hne => absurd rfl hne, fun _ => rfl⟩

/-- Settles O37: each context moves along its program and leaves the other. -/
theorem contextsFollowTheirPrograms : Obligations.ContextsFollowTheirPrograms := by
  unfold Obligations.ContextsFollowTheirPrograms
  refine ⟨fun s t offer kt ke h => ?_, fun s t ha h => ?_⟩
  · obtain ⟨_, hm⟩ := runTurn_main_eq_next.mp h
    exact ⟨mainStep_successors hm, mainStep_bctx hm⟩
  · rw [runTurn_bctx_active ha] at h
    exact ⟨(bctxProgram_sameOutsideButton h).main, bctxProgram_successors ha h⟩

/-- Settles O41: while BCTX is active MAIN has no turn, and of the operations only RESET writes MAIN. -/
theorem activeButtonContextHoldsMain : Obligations.ActiveButtonContextHoldsMain := by
  unfold Obligations.ActiveButtonContextHoldsMain
  intro s t ha h hreset
  rw [← takeTurn_bctx s] at ha
  rw [← takeTurn_main s]
  rcases runTurn_cases h with ⟨_, _, _, _, rfl⟩ | ⟨a, w, i, ht, hd, hw, _, he⟩ | ⟨_, _, _, _, ha', _⟩ |
    ⟨_, _, hb⟩ | ⟨_, ha', _⟩
  · rfl
  · rcases exec_contexts he with ⟨hm, _⟩ | ⟨rfl, _⟩
    · exact hm
    · obtain rfl := encode_of_decode hd
      obtain rfl := (wellIssued_iff_eq rfl a).mp hw
      exact absurd ht hreset
  · exact absurd (ha.symm.trans ha') nofun
  · exact (bctxProgram_sameOutsideButton hb).main
  · exact absurd (ha.symm.trans ha') nofun

/-- Settles O42: neither the entry nor BCTX's program writes the counter unit or MAIN. -/
theorem buttonContextTouchesNoCounter : Obligations.ButtonContextTouchesNoCounter := by
  unfold Obligations.ButtonContextTouchesNoCounter
  intro s t hturn h
  obtain ⟨sch, n, hs⟩ := takeTurn_eq s
  rw [step, hturn, hs] at h
  obtain ⟨hwt, hlow, hhigh, hwin, hcap, harmed, htick, hedge, hmain⟩ := runTurn_bctx_sameOutsideButton h
  exact ⟨hwt, hlow, hhigh, hwin, hcap, harmed, htick, hedge, hmain⟩

/-! ### The turns of a free choice -/

/-- SVC's turns step only while their flag is pending (42_host_protocol.md R185 b). -/
theorem mem_svcTurns_of_answers {i : Instr} {s u : State} (hi : i = .tickSvc ∨ i = .edgeSvc)
    (h : runTurn (.issue .svc (encode i)) s = .next u) : .issue .svc (encode i) ∈ svcTurns s := by
  rcases hi with rfl | rfl <;> rw [runTurn_issue_encode (decode_encode _) rfl rfl] at h
  · obtain ⟨hp, _⟩ := execTickSvc_eq_next.mp h
    simp [svcTurns, hp]
  · obtain ⟨hp, _⟩ := execEdgeSvc_eq_next.mp h
    simp [svcTurns, hp]

/-- BCTX's turn steps only while BCTX is active or a button is pending (42_host_protocol.md R182, R185 c). -/
theorem mem_bctxTurns_of_answers {s u : State} (h : runTurn .bctx s = .next u) : .bctx ∈ bctxTurns s := by
  cases ha : s.bctx.active with
  | true => simp [bctxTurns, ha]
  | false =>
    obtain ⟨hp, _⟩ := (runTurn_bctx_inactive ha).mp h
    simp [bctxTurns, hp]

/-- MAIN's turn steps only while BCTX is inactive and MAIN does not wait for the ADC (42_host_protocol.md R171,
R185 d). -/
theorem mem_mainTurns_of_answers {offer : Option AdcResult} {kt ke : Bool} {s u : State}
    (h : runTurn (.main offer kt ke) s = .next u) : .main offer kt ke ∈ mainTurns offer kt ke s := by
  obtain ⟨ha, hm⟩ := runTurn_main_eq_next.mp h
  cases hw : mainWaitsForAdc offer s with
  | true =>
    rw [mainStep_waits hw] at hm
    cases hm
  | false => simp [mainTurns, ha, hw]

/-- Settles O44: an enabled turn answers, and each agent's turn answers only where it is enabled. -/
theorem enabledTurnsAreThoseThatStep : Obligations.EnabledTurnsAreThoseThatStep := by
  unfold Obligations.EnabledTurnsAreThoseThatStep
  refine ⟨chooseTurn_mem_freeTurns, fun s offer kt ke hs t ht => ⟨enabledTurns_answer hs, fun ⟨u, h⟩ => ?_⟩⟩
  change t ∈ envTurns ++ [.issue .svc (encode .tickSvc), .issue .svc (encode .edgeSvc), .bctx, .main offer kt ke] at ht
  simp only [List.mem_append, List.mem_cons, List.not_mem_nil, or_false] at ht
  simp only [enabledTurns, List.mem_append]
  rcases ht with henv | rfl | rfl | rfl | rfl
  · exact .inl (.inl (.inl henv))
  · exact .inl (.inl (.inr (mem_svcTurns_of_answers (.inl rfl) h)))
  · exact .inl (.inl (.inr (mem_svcTurns_of_answers (.inr rfl) h)))
  · exact .inl (.inr (mem_bctxTurns_of_answers h))
  · exact .inr (mem_mainTurns_of_answers h)

/-! ### The steps of MAIN -/

/-- Settles O28: the sample takes what the oracle offers, and the gate compares it with 203. -/
theorem sampleAndThresholdGate : Obligations.SampleAndThresholdGate := by
  unfold Obligations.SampleAndThresholdGate
  intro s offer kt ke ha
  simp only [runTurn_main ha]
  refine ⟨fun hpc => ?_, fun v hpc hv => ?_⟩
  · simp only [mainStep, hpc]
    exact ⟨fun v => rfl, fun t => nofun⟩
  · rw [mainStep_gate hpc hv]
    exact ⟨fun hge => by rw [if_neg (Nat.not_lt.mpr hge)]; rfl, fun hlt => by rw [if_pos hlt]; rfl⟩

/-- Settles O29: each of these control states is one operation or a `goto`. -/
theorem mainArmsDisarmsAndClears : Obligations.MainArmsDisarmsAndClears := by
  unfold Obligations.MainArmsDisarmsAndClears
  intro s offer kt ke ha
  rw [runTurn_main ha, ← keptPending_eq_and, ← keptPending_eq_and]
  refine ⟨fun hpc => ?_, fun hpc => ?_, fun hpc => ?_, fun hpc => ?_, fun hpc => ?_⟩
  all_goals rw [mainStep, hpc]; rfl

/-- Settles O30: the read answers with WT, and the test is equality with 25. -/
theorem waitEndsOnlyAtTwentyFive : Obligations.WaitEndsOnlyAtTwentyFive := by
  unfold Obligations.WaitEndsOnlyAtTwentyFive
  intro s offer kt ke ha
  rw [runTurn_main ha]
  refine ⟨fun hpc => by rw [mainStep, hpc]; rfl, fun t hpc ht => ?_⟩
  have h25 : t.toNat = 25 ↔ t = 25 := BitVec.toNat_inj (y := 25)
  simp only [mainStep_waitTest hpc ht, h25]
  rfl

/-- Settles O31: each read answers with its register, which MAIN copies. -/
theorem mainReadsLowThenHigh : Obligations.MainReadsLowThenHigh := by
  unfold Obligations.MainReadsLowThenHigh
  intro s offer kt ke ha
  rw [runTurn_main ha]
  refine ⟨fun hpc => ?_, fun hpc => ?_⟩
  all_goals rw [mainStep, hpc]; rfl

/-- Settles O32: a positive count is a copy that is not zero. -/
theorem zeroMeasurementIsNotSent : Obligations.ZeroMeasurementIsNotSent := by
  unfold Obligations.ZeroMeasurementIsNotSent
  intro s offer kt ke l h ha hpc hl hh
  rw [runTurn_main ha, mainStep_test hpc hl hh]
  refine ⟨fun hl0 hh0 => by rw [if_pos ⟨hl0, hh0⟩]; rfl, fun hpos => ?_⟩
  have hne : ¬ (l = 0 ∧ h = 0) := by
    rintro ⟨rfl, rfl⟩
    simp at hpos
  rw [if_neg hne]
  rfl

/-! ### The button -/

/-- Settles O23: a press meets BTNPEND. -/
theorem btnSetsPendingOrIsLost : Obligations.BtnSetsPendingOrIsLost := by
  unfold Obligations.BtnSetsPendingOrIsLost
  refine ⟨by decide, wellIssued_iff_eq rfl, fun s => ⟨fun hb => ?_, fun hb => ?_⟩⟩
  · exact congrArg Host.Outcome.next (if_neg (by simp [hb]))
  · exact congrArg Host.Outcome.next (if_pos hb)

/-- Settles O35: the entry is BCTX's only step while it is inactive. -/
theorem buttonEntryStartsRestFrame : Obligations.ButtonEntryStartsRestFrame := by
  unfold Obligations.ButtonEntryStartsRestFrame
  intro s ha
  refine ⟨fun hb => (runTurn_bctx_inactive ha).mpr ⟨hb, rfl⟩, fun hb t h => ?_⟩
  obtain ⟨hb', _⟩ := (runTurn_bctx_inactive ha).mp h
  exact absurd (hb.symm.trans hb') nofun

/-- At B_SEND BCTX steps as SEND_FRAME 0, 0 does: where that goes on to `k'`, so does BCTX. -/
theorem bctxProgram_send {s t : State} {k k' : SendPc} {r : Option Bool} (hpc : s.bctx.pc = .bSend k)
    (h : sendStep .bctxR .bctxR .bctxR (some 0) (some 0) k s.bctx.r s = .next ⟨t, r, some k'⟩) :
    bctxProgram s = .next { t with bctx := { t.bctx with r := r, pc := .bSend k' } } := by
  rw [bctxProgram, hpc]
  exact andThen_eq_next.mpr ⟨_, h, rfl⟩

/-- Settles O36: each step of an active BCTX is the one of SEND_FRAME 0, 0 at its control state, or the return. -/
theorem buttonContextSendsRestFrame : Obligations.ButtonContextSendsRestFrame := by
  unfold Obligations.ButtonContextSendsRestFrame
  intro s ha
  rw [runTurn_bctx_active ha]
  refine ⟨fun hpc => ?_, fun hpc => ?_, fun r hpc hr => ?_, fun hpc hf => ?_, fun hpc => ?_, fun r hpc hr => ?_,
    fun hpc hf => ?_, fun hpc => ?_, fun hpc => ?_⟩
  · exact bctxProgram_send hpc rfl
  · exact bctxProgram_send hpc rfl
  · exact bctxProgram_send hpc (sendTest_written hr)
  · exact bctxProgram_send hpc (sendWrite_empty rfl hf)
  · exact bctxProgram_send hpc rfl
  · exact bctxProgram_send hpc (sendTest_written hr)
  · exact bctxProgram_send hpc (sendWrite_empty rfl hf)
  · rw [bctxProgram, hpc]; rfl
  · rw [bctxProgram, hpc]; rfl

/-! ### The receiver's contract -/

/-- A received byte counts as the value modulo 256 (20_memory.md R60). -/
@[simp] theorem toNat_trunc8 (v : Word) : (trunc8 v).toNat = v.toNat % 256 := by
  simp [trunc8]

/-- A received byte is zero exactly for the multiples of 256 (20_memory.md R60). -/
theorem trunc8_eq_zero_iff (v : Word) : trunc8 v = 0 ↔ 256 ∣ v.toNat := by
  rw [← BitVec.toNat_inj, toNat_trunc8, Nat.dvd_iff_mod_eq_zero]
  rfl

/-- Settles O60: LOW is below 256, so its byte is LOW; of HIGH the remainder modulo 256 is left. -/
theorem receiverReadsLowByteOfHigh : Obligations.ReceiverReadsLowByteOfHigh := by
  unfold Obligations.ReceiverReadsLowByteOfHigh
  intro s hs
  have hlow := hs.low
  have hzero : 256 ∣ s.low.toNat ↔ s.low = 0 := by
    rw [← BitVec.toNat_inj, Nat.dvd_iff_mod_eq_zero, Nat.mod_eq_of_lt (by omega)]
    rfl
  have hedges : receivedEdges (trunc8 s.low, trunc8 s.high) = s.high.toNat % 256 * 250 + s.low.toNat := by
    simp only [receivedEdges, toNat_trunc8]
    omega
  refine ⟨(trunc8 s.low, trunc8 s.high), rfl, hedges, Nat.mul_comm _ _, fun hhigh => ?_, ?_⟩
  · rw [hedges, Nat.mod_eq_of_lt hhigh, State.totalEdges]
  · simp only [isRest, Bool.and_eq_true, decide_eq_true_eq, trunc8_eq_zero_iff, hzero]

end Sys2Proof.Machine

/-!
PROOFS. The statement of 60_exceptions.md: which event sets a pending flag.
-/

namespace Sys2Proof.Machine

/-! ### Which operation sets a pending flag -/

/-- DISARM keeps a pending flag or clears it, whatever its draw (40_counter_timer.md R106). -/
theorem pending_of_keptPending {pending draw : Bool} (h : keptPending pending draw = true) : pending = true := by
  rw [keptPending_eq_and, Bool.and_eq_true] at h
  exact h.left

section Operations

variable {i : Instr} {s t : State}

/-- Only an armed CLK at the end of the window time base sets TICKPEND (40_counter_timer.md R100, 60_exceptions.md
R206). -/
theorem tickPend_or_clk_of_exec (h : exec i s = .next t) (ht : t.tickPend = true) :
    s.tickPend = true ∨ (i = .clk ∧ s.armed = true ∧ s.winBase = 9999) := by
  obtain ⟨_, _, _, _, hkeep, _⟩ := onlyListedOperationsWriteAnElement i s t h
  cases i
  case clk =>
    rcases execClk_cases h with ⟨_, rfl⟩ | ⟨_, _, rfl⟩ | ⟨ha, hw, _, _⟩ | ⟨_, _, hp, _⟩
    · exact .inl ht
    · exact .inl ht
    · exact .inr ⟨rfl, ha, BitVec.toNat_inj.mp hw⟩
    · exact .inl hp
  case tickSvc => obtain ⟨hp, _⟩ := execTickSvc_eq_next.mp h; exact .inl hp
  case disarm => cases h; exact .inl (pending_of_keptPending ht)
  case reset => cases h; cases ht
  all_goals exact .inl (hkeep (by simp [Instr.mnemonic]) ▸ ht)

/-- Only an armed EDGE sets EDGEPEND (40_counter_timer.md R101, 60_exceptions.md R206). -/
theorem edgePend_or_edge_of_exec (h : exec i s = .next t) (ht : t.edgePend = true) :
    s.edgePend = true ∨ (i = .edge ∧ s.armed = true) := by
  obtain ⟨_, _, _, _, _, hkeep, _⟩ := onlyListedOperationsWriteAnElement i s t h
  cases i
  case edge =>
    rcases execEdge_cases h with ⟨_, rfl⟩ | ⟨ha, _, rfl⟩ | ⟨_, hp, _⟩
    · exact .inl ht
    · exact .inr ⟨rfl, ha⟩
    · exact .inl hp
  case edgeSvc => obtain ⟨hp, _⟩ := execEdgeSvc_eq_next.mp h; exact .inl hp
  case disarm => cases h; exact .inl (pending_of_keptPending ht)
  case reset => cases h; cases ht
  all_goals exact .inl (hkeep (by simp [Instr.mnemonic]) ▸ ht)

/-- Only BTN sets BTNPEND (42_host_protocol.md R181). -/
theorem btnPend_or_btn_of_exec (h : exec i s = .next t) (ht : t.btnPend = true) : s.btnPend = true ∨ i = .btn := by
  obtain ⟨_, _, _, _, _, _, hkeep, _⟩ := onlyListedOperationsWriteAnElement i s t h
  cases i
  case btn => exact .inr rfl
  case reset => cases h; cases ht
  all_goals exact .inl (hkeep (by simp [Instr.mnemonic]) ▸ ht)

end Operations

/-! ### Which turn sets a pending flag -/

/-- No pending flag is set in `t` that was clear in `s`. -/
structure State.SetsNoFlag (s t : State) : Prop where
  tick : t.tickPend = true → s.tickPend = true
  edge : t.edgePend = true → s.edgePend = true
  btn : t.btnPend = true → s.btnPend = true

theorem State.SetsNoFlag.refl (s : State) : s.SetsNoFlag s := ⟨id, id, id⟩

/-- A host operation sets no pending flag: the three that do are ENV's (30_encoding.md R75). -/
theorem exec_host_setsNoFlag {i : Instr} {s t : State} (hi : wellIssued .main i = true) (h : exec i s = .next t) :
    s.SetsNoFlag t where
  tick ht := (tickPend_or_clk_of_exec h ht).resolve_right fun ⟨hclk, _⟩ => by subst hclk; cases hi
  edge ht := (edgePend_or_edge_of_exec h ht).resolve_right fun ⟨hedge, _⟩ => by subst hedge; cases hi
  btn ht := (btnPend_or_btn_of_exec h ht).resolve_right fun hbtn => by subst hbtn; cases hi

theorem mainStep_setsNoFlag {p : Params} {offer : Option AdcResult} {kt ke : Bool} {s t : State}
    (h : mainStep p offer kt ke s = .next t) : s.SetsNoFlag t := by
  obtain ⟨u, m, hu, rfl⟩ := mainStep_block h
  suffices s.SetsNoFlag u from { this with }
  rcases hu with rfl | ⟨i, hi, he⟩
  · exact .refl u
  · exact exec_host_setsNoFlag hi he

theorem bctxProgram_setsNoFlag {s t : State} (h : bctxProgram s = .next t) : s.SetsNoFlag t := by
  obtain ⟨u, b, hu, rfl⟩ := bctxProgram_block h
  suffices s.SetsNoFlag u from { this with }
  rcases hu with rfl | he | he | he | he
  · exact .refl u
  all_goals exact exec_host_setsNoFlag rfl he

/-- A turn sets no pending flag, unless it issues an operation that runs: the control programs, the button entry and a
refused word set none (60_exceptions.md R202, R207, R210). -/
theorem runTurn_setsNoFlag_or_issues {turn : Turn} {s t : State} (h : runTurn turn s = .next t) :
    s.SetsNoFlag t ∨ ∃ a i, turn = .issue a (encode i) ∧ wellIssued a i = true ∧ exec i s = .next t := by
  rcases runTurn_cases h with ⟨_, _, _, _, rfl⟩ | ⟨a, w, i, hturn, hd, hw, _, he⟩ | ⟨_, _, _, _, _, hm⟩ |
    ⟨_, _, hb⟩ | ⟨_, _, _, rfl⟩
  · exact .inl { State.SetsNoFlag.refl s with }
  · exact .inr ⟨a, i, encode_of_decode hd ▸ hturn, hw, he⟩
  · exact .inl (mainStep_setsNoFlag hm)
  · exact .inl (bctxProgram_setsNoFlag hb)
  · exact .inl { State.SetsNoFlag.refl s with btn := nofun }

/-- Settles O43: a turn that sets a flag issues the operation that sets it, and ENV is its only issuer. -/
theorem pendingFlagsAreSetByEventsOnly : Obligations.PendingFlagsAreSetByEventsOnly := by
  unfold Obligations.PendingFlagsAreSetByEventsOnly
  intro s t h
  obtain ⟨sch, n, hs⟩ := takeTurn_eq s
  rw [step, hs] at h
  rcases runTurn_setsNoFlag_or_issues h with hnone | ⟨a, i, hturn, hw, he⟩
  · exact ⟨fun ht => .inl (hnone.tick ht), fun ht => .inl (hnone.edge ht), fun ht => .inl (hnone.btn ht)⟩
  have byEnv {j : Instr} (hj : j.issuers = [.env]) (hij : i = j) : nextTurn s = .issue .env (encode j) := by
    subst hij
    rw [hturn, (wellIssued_iff_eq hj a).mp hw]
  refine ⟨fun ht => ?_, fun ht => ?_, fun ht => ?_⟩
  · exact (tickPend_or_clk_of_exec he ht).imp_right fun ⟨hclk, ha, hwin⟩ => ⟨ha, hwin, byEnv rfl hclk⟩
  · exact (edgePend_or_edge_of_exec he ht).imp_right fun ⟨hedge, ha⟩ => ⟨ha, byEnv rfl hedge⟩
  · exact (btnPend_or_btn_of_exec he ht).imp_right (byEnv rfl)

end Sys2Proof.Machine

/-!
PROOFS. The statements of 70_reset_and_hazards.md: what RESET writes, the initial state, MAIN's overrun of a full buffer
and an event kept pending across DISARM.
-/

namespace Sys2Proof.Machine

/-! ### Reset and the initial state -/

/-- RESET leaves the initial state, but for what 70_reset_and_hazards.md R230 does not list. -/
theorem exec_reset (s : State) : exec .reset s = .next { State.reset with
    faults := s.faults
    refused := s.refused
    main := { State.reset.main with r := s.main.r }
    bctx := { s.bctx with active := false }
    trace := s.trace
    returned := s.returned
    schedule := s.schedule
    draws := s.draws } := rfl

/-- Settles O24: every element R230 lists has the value it has in the initial state. -/
theorem resetWritesResetValues : Obligations.ResetWritesResetValues := by
  unfold Obligations.ResetWritesResetValues
  refine ⟨by decide, wellIssued_iff_eq rfl, fun s => ⟨_, exec_reset s, ?_⟩⟩
  simp [State.reset]

/-- Settles O26: what RESET keeps of the initial state is the initial state's own, and BTNPEND is clear there. -/
theorem initialStateIsWhatResetLeaves : Obligations.InitialStateIsWhatResetLeaves := by
  unfold Obligations.InitialStateIsWhatResetLeaves
  obtain ⟨_, _, hbtn⟩ := btnSetsPendingOrIsLost
  obtain ⟨htaken, _⟩ := hbtn State.reset
  exact ⟨exec_reset State.reset, rfl, rfl, rfl, rfl, rfl, rfl, rfl, rfl, htaken rfl⟩

/-- The initial state has an idle transmitter, the line at 1, LOW and WINBASE 0 (70_reset_and_hazards.md R230). -/
theorem State.reset_legal : State.reset.Legal where
  low := by decide
  winBase := by decide
  txIdx := by decide
  txIdxIdle _ := rfl
  txd := rfl
  startBit := nofun
  stopBit := nofun
  faults := .nil

/-- The initial state has no signal: MAIN is about to sample and nothing is armed, pending or counted
(42_host_protocol.md R192). -/
theorem State.reset_silent : State.reset.Silent where
  gate := .inl rfl
  armed := rfl
  pending := ⟨rfl, rfl, rfl⟩
  counters := ⟨rfl, rfl, rfl⟩
  idle := ⟨rfl, rfl⟩
  led := rfl
  button := rfl

/-- Settles O46: MAIN is at G_SAMPLE, which reads no local and writes no byte, and BCTX is inactive. -/
theorem initialStateMeetsTheInvariants : Obligations.InitialStateMeetsTheInvariants := by
  unfold Obligations.InitialStateMeetsTheInvariants
  exact ⟨State.reset_legal, ⟨rfl, rfl⟩, trivial, State.bctxBufferFree_of_inactive rfl, State.reset_silent⟩

/-! ### MAIN's overrun of a full buffer -/

/-- A TX_WR of SEND_FRAME into a full buffer raises TxOverrun and goes on (41_frame_transmitter.md R141, log 17). -/
theorem sendWrite_full {name : HostLocal} {v : Option Word} {x : Word} {r : Option Bool} {k : SendPc} {s : State}
    (hv : v = some x) (hf : s.txFull = true) :
    sendWrite name v r k s = .next ⟨s.raiseFault .txOverrun, r, some k⟩ := by
  simp [sendWrite, sendIssue, hv, exec_txWr_full _ hf]

/-- Settles O34: at either TX_WR the step is that of SEND_FRAME with a full buffer. -/
theorem mainOverrunsFullBuffer : Obligations.MainOverrunsFullBuffer := by
  unfold Obligations.MainOverrunsFullBuffer
  intro s offer kt ke v k k' ha hpc hf hk
  have hsend : sendStep .mainL .mainH .mainR s.main.l s.main.h k s.main.r s =
      .next ⟨s.raiseFault .txOverrun, s.main.r, some k'⟩ := by
    rcases hk with ⟨rfl, hl, rfl⟩ | ⟨rfl, hh, rfl⟩
    · exact sendWrite_full hl hf
    · exact sendWrite_full hh hf
  rw [runTurn_main ha]
  exact ⟨_, mainStep_send hpc hsend, State.mem_raiseFault_faults.mpr (.inr rfl), rfl⟩

/-! ### An event kept pending by DISARM -/

/-- TICK_SVC runs while its flag is pending (40_counter_timer.md R103). -/
theorem exec_tickSvc_pending {s : State} (hp : s.tickPend = true) :
    exec .tickSvc s = .next { s with tickPend := false, wt := s.wt + 1 } :=
  execTickSvc_eq_next.mpr ⟨hp, rfl⟩

/-- EDGE_SVC runs while its flag is pending (40_counter_timer.md R104). -/
theorem exec_edgeSvc_pending {s : State} (hp : s.edgePend = true) :
    exec .edgeSvc s = .next (edgeSvcOp Config.params s) :=
  execEdgeSvc_eq_next.mpr ⟨hp, rfl⟩

/-- At LOW = 249 the serviced edge carries into HIGH (40_counter_timer.md R104). -/
theorem exec_edgeSvc_carry {s : State} (hp : s.edgePend = true) (hl : s.low = 249) :
    exec .edgeSvc s = .next { s with edgePend := false, low := 0, high := s.high + 1 } := by
  rw [exec_edgeSvc_pending hp, edgeSvcOp_carry _ (by rw [hl]; rfl)]

/-- At LOW = 0 the serviced edge makes LOW 1 (40_counter_timer.md R104). -/
theorem exec_edgeSvc_first {s : State} (hp : s.edgePend = true) (hl : s.low = 0) :
    exec .edgeSvc s = .next { s with edgePend := false, low := 1 } := by
  rw [exec_edgeSvc_pending hp, edgeSvcOp_count _ (by rw [hl]; decide), hl]
  rfl

/-- A serviced edge is no longer pending (40_counter_timer.md R104). -/
theorem edgeSvcOp_edgePend (p : Params) (s : State) : (edgeSvcOp p s).edgePend = false := by
  obtain ⟨_, hserved, _⟩ := edgeSvcOp_frame p s
  exact hserved

/-- A sequence runs if its first operation does and then the rest. -/
theorem execAll_cons_eq_next {i : Instr} {is : List Instr} {s t u : State} (h : exec i s = .next t)
    (hrest : execAll is t = .next u) : execAll (i :: is) s = .next u :=
  (execAll_cons_of_next h).trans hrest

/-- Settles O59: DISARM keeps the flag whose draw is 1, so its service still runs. Between the reads it carries after
LOW was read; before CLEAR it counts what CLEAR wipes; after CLEAR it counts from 0. -/
theorem pendingAcrossDisarmHazard : Obligations.PendingAcrossDisarmHazard := by
  unfold Obligations.PendingAcrossDisarmHazard
  refine fun s => ⟨fun kt hp => ⟨fun hl => ?edgeBetweenReads, ?edgeBeforeClear, ?edgeAfterClear⟩,
    fun ke hp => ⟨?tickBeforeClear, ?tickAfterClear⟩⟩
  case edgeBetweenReads =>
    refine ⟨_, execAll_cons_eq_next rfl <| execAll_cons_eq_next rfl <|
      execAll_cons_eq_next (exec_edgeSvc_carry hp hl) <| execAll_cons_eq_next rfl rfl, ?_, rfl⟩
    simp [hl]
  case edgeBeforeClear =>
    exact ⟨_, execAll_cons_eq_next rfl <| execAll_cons_eq_next rfl <| execAll_cons_eq_next rfl <|
      execAll_cons_eq_next (exec_edgeSvc_pending hp) <| execAll_cons_eq_next rfl rfl,
      rfl, rfl, edgeSvcOp_edgePend _ _⟩
  case edgeAfterClear =>
    exact ⟨_, execAll_cons_eq_next rfl <| execAll_cons_eq_next rfl <|
      execAll_cons_eq_next (exec_edgeSvc_first hp rfl) rfl, rfl, rfl⟩
  case tickBeforeClear =>
    exact ⟨_, execAll_cons_eq_next rfl <| execAll_cons_eq_next rfl <| execAll_cons_eq_next rfl <|
      execAll_cons_eq_next (exec_tickSvc_pending hp) <| execAll_cons_eq_next rfl rfl, rfl, rfl⟩
  case tickAfterClear =>
    exact ⟨_, execAll_cons_eq_next rfl <| execAll_cons_eq_next rfl <|
      execAll_cons_eq_next (exec_tickSvc_pending hp) rfl, rfl⟩

end Sys2Proof.Machine

/-!
PROOFS. The statements about the step itself: what it adds to the trace, which turn it runs, what a placed word does, and
what RESET leaves.
-/

namespace Sys2Proof.Machine

/-! ### The trace -/

/-- No operation's pseudocode records two events (40_counter_timer.md, 41_frame_transmitter.md, 42_host_protocol.md). -/
theorem exec_records_at_most_one {i : Instr} {s t : State} (h : exec i s = .next t) :
    t.trace = s.trace ∨ ∃ e, t.trace = s.trace ++ [e] := by
  cases i <;> simp only [exec] at h
  case clk => rcases execClk_cases h with ⟨_, rfl⟩ | ⟨_, _, rfl⟩ | ⟨_, _, _, rfl⟩ | ⟨_, _, _, rfl⟩ <;> simp
  case edge => rcases execEdge_cases h with ⟨_, rfl⟩ | ⟨_, _, rfl⟩ | ⟨_, _, rfl⟩ <;> simp
  case btn => rcases execBtn_cases h with ⟨_, rfl⟩ | ⟨_, rfl⟩ <;> simp
  case baud => rcases execBaud_cases h with ⟨_, _, rfl⟩ | ⟨_, _, rfl⟩ | ⟨_, _, rfl⟩ | ⟨_, _, _, rfl⟩ <;> simp
  case tickSvc => obtain ⟨_, rfl⟩ := execTickSvc_eq_next.mp h; exact .inl rfl
  case edgeSvc => rcases execEdgeSvc_cases h with ⟨_, ⟨_, rfl⟩ | ⟨_, rfl⟩⟩ <;> exact .inl rfl
  case txWr =>
    rcases execTxWr_cases h with ⟨_, rfl⟩ | ⟨_, rfl⟩
    · exact .inl rfl
    · exact .inr ⟨_, rfl⟩
  case rdWt | rdLow | rdHigh | rdTxrdy | ledOn | ledOff => cases h; exact .inr ⟨_, rfl⟩
  case reset | arm | disarm | clear => cases h; exact .inl rfl

/-- Settles O39: a step runs at most one operation, and nothing else it does to the block records an event. -/
theorem traceOnlyGrowsByOneEvent : Obligations.TraceOnlyGrowsByOneEvent := by
  unfold Obligations.TraceOnlyGrowsByOneEvent
  intro s t h
  obtain ⟨u, m, b, hu, rfl⟩ := step_block h
  rcases hu with rfl | rfl | rfl | ⟨i, he⟩
  · exact .inl (takeTurn_trace s)
  · exact .inl (takeTurn_trace s)
  · exact .inl (takeTurn_trace s)
  · simpa using exec_records_at_most_one he

/-! ### The turn a step runs -/

/-- Settles O8: the two ways a turn is taken. -/
theorem stepRunsNextTurn : Obligations.StepRunsNextTurn :=
  ⟨fun _ _ _ => step_placed, fun _ => step_free⟩

/-! ### Placing an operation -/

@[simp] theorem withEnabling_schedule (i : Instr) (s : State) : (withEnabling i s).schedule = s.schedule := by
  cases i <;> rfl

@[simp] theorem withEnabling_bctx (i : Instr) (s : State) : (withEnabling i s).bctx = s.bctx := by
  cases i <;> rfl

/-- The issuer chosen for an operation may issue it (30_encoding.md R75). -/
theorem wellIssued_issuerOf (i : Instr) (s : State) : wellIssued (issuerOf i s) i = true := by
  cases i <;> cases ha : s.bctx.active <;> simp [issuerOf, wellIssued, Instr.issuers, ha]

/-- The issuer chosen for an operation runs (42_host_protocol.md R185). -/
theorem agentRuns_issuerOf {s t : State} (hb : t.bctx = s.bctx) (i : Instr) : agentRuns (issuerOf i s) t = true := by
  cases i <;> cases ha : s.bctx.active <;> simp [issuerOf, agentRuns, hb, ha]

/-- A 16-bit word is placed whole (30_encoding.md R74). -/
theorem State.withFetchWord_toNat (s : State) (w : Word) : s.withFetchWord 16 w.toNat = placeWord w s := by
  rw [State.withFetchWord, Nat.mod_eq_of_lt w.isLt, BitVec.ofNat_toNat, BitVec.setWidth_eq]

/-- The word of an operation is placed as a turn of the issuer chosen for it, its pending flag set. -/
theorem placeWord_encode (i : Instr) (s : State) : placeWord (encode i) s =
    { withEnabling i s with schedule := .issue (issuerOf i s) (encode i) :: s.schedule } := by
  simp only [placeWord, decode_encode]

/-- Settles O10: the chosen issuer may issue the placed word and runs, so the word does its operation. -/
theorem placedOperationRunsNext : Obligations.PlacedOperationRunsNext := by
  unfold Obligations.PlacedOperationRunsNext
  intro s i
  rw [State.withFetchWord_toNat, placeWord_encode, step_placed rfl, ← withEnabling_schedule i s]
  exact runTurn_issue_encode (decode_encode i) (wellIssued_issuerOf i s)
    (agentRuns_issuerOf (withEnabling_bctx i s) i)

/-! ### What RESET leaves -/

/-- Settles O25: RESET is the initial state but for the fields it keeps. -/
theorem resetLeavesTheRest : Obligations.ResetLeavesTheRest := exec_reset

end Sys2Proof.Machine
